-- ==== Sys2Proof/Word.lean ====
section
/-! DEFINITION. The words of the block: every register and every lane is 32 bits wide (00_scope.md R9), and a half has
16 bits (R12). -/

namespace Sys2Proof

/-- A 32-bit register or lane (00_scope.md R9). -/
abbrev Word := BitVec 32

/-- A 16-bit half (00_scope.md R12). -/
abbrev Half := BitVec 16

end Sys2Proof
end

