-- ==== Sys2Proof/Syntax.lean ====
section
/-! DEFINITION. The command set's syntax: one constructor of `Instr` per row of the opcode table (30_encoding.md R74),
the fields of a command word (R71), the operands a mnemonic's suffix names (R80), and the causes of an illegal
command (60_exceptions.md R201). -/

namespace Sys2Proof

/-- The 42 legal commands (30_encoding.md R74). No command word carries an operand or an immediate (R72), so no
constructor has a field: the lane count or the shape is part of the command's name, as in the opcode table. -/
inductive Instr where
  /-- NOP -/
  | nop
  /-- F32TOF16.1 -/
  | f32tof16_1
  /-- F32TOF16.2 -/
  | f32tof16_2
  /-- F32TOF16.3 -/
  | f32tof16_3
  /-- F32TOF16.4 -/
  | f32tof16_4
  /-- F16TOF32.1 -/
  | f16tof32_1
  /-- F16TOF32.2 -/
  | f16tof32_2
  /-- F16TOF32.3 -/
  | f16tof32_3
  /-- F16TOF32.4 -/
  | f16tof32_4
  /-- SINCOS.1 -/
  | sincos_1
  /-- SINCOS.2 -/
  | sincos_2
  /-- SINCOS.3 -/
  | sincos_3
  /-- SINCOS.4 -/
  | sincos_4
  /-- HASH.2x1 -/
  | hash_2x1
  /-- HASH.3x1 -/
  | hash_3x1
  /-- HASH.4x1 -/
  | hash_4x1
  /-- HASH.2x2 -/
  | hash_2x2
  /-- HASH.3x2 -/
  | hash_3x2
  /-- HASH.4x2 -/
  | hash_4x2
  /-- HASH.2x3 -/
  | hash_2x3
  /-- HASH.3x3 -/
  | hash_3x3
  /-- HASH.4x3 -/
  | hash_4x3
  /-- HASH.2x4 -/
  | hash_2x4
  /-- HASH.3x4 -/
  | hash_3x4
  /-- HASH.4x4 -/
  | hash_4x4
  /-- HASHWIDE.2x1 -/
  | hashwide_2x1
  /-- HASHWIDE.3x1 -/
  | hashwide_3x1
  /-- HASHWIDE.4x1 -/
  | hashwide_4x1
  /-- HASHWIDE.2x2 -/
  | hashwide_2x2
  /-- HASHWIDE.3x2 -/
  | hashwide_3x2
  /-- HASHWIDE.4x2 -/
  | hashwide_4x2
  /-- HASHWIDE.2x3 -/
  | hashwide_2x3
  /-- HASHWIDE.3x3 -/
  | hashwide_3x3
  /-- HASHWIDE.4x3 -/
  | hashwide_4x3
  /-- HASHWIDE.2x4 -/
  | hashwide_2x4
  /-- HASHWIDE.3x4 -/
  | hashwide_3x4
  /-- HASHWIDE.4x4 -/
  | hashwide_4x4
  /-- SEED -/
  | seed
  /-- NEXTUINT.1 -/
  | nextuint_1
  /-- NEXTUINT.2 -/
  | nextuint_2
  /-- NEXTUINT.3 -/
  | nextuint_3
  /-- NEXTUINT.4 -/
  | nextuint_4
deriving DecidableEq, Repr

/-- The four fields of a command word (30_encoding.md R71). -/
structure CommandFields where
  /-- bits 3:0, the opcode -/
  op : BitVec 4
  /-- bits 5:4, the lane count or the row count, minus one -/
  nf : BitVec 2
  /-- bits 7:6, the column count minus one -/
  cf : BitVec 2
  /-- bits 31:8, reserved -/
  rsv : BitVec 24
deriving DecidableEq, Repr

/-- What a mnemonic's suffix says of the operands (30_encoding.md R80): none, `.N` lanes, or a shape `.RxC`. -/
inductive Operands where
  | nullary
  | lanes (n : Nat)
  | matrix (rows cols : Nat)
deriving DecidableEq, Repr

/-- The causes a rejected command word can have (60_exceptions.md R201). -/
inductive IllegalCause where
  /-- RESERVED_OPCODE: opcode 0x8 to 0xF (30_encoding.md R75). -/
  | reservedOpcode
  /-- RESERVED_FIELD: a legal opcode with a must-be-zero field that is not zero (30_encoding.md R76). -/
  | reservedField
  /-- ILLEGAL_SHAPE: HASH or HASHWIDE of one row (30_encoding.md R77). -/
  | illegalShape
deriving DecidableEq, Repr

/-- What the decoder answers (30_encoding.md R79): a legal command, or `Illegal(cause)`. -/
inductive Decoded where
  | legal (i : Instr)
  | illegal (c : IllegalCause)
deriving DecidableEq, Repr

/-- The operands of each command, as its mnemonic's suffix names them (30_encoding.md R80). -/
def Instr.operands : Instr → Operands
  | .nop => .nullary
  | .f32tof16_1 => .lanes 1
  | .f32tof16_2 => .lanes 2
  | .f32tof16_3 => .lanes 3
  | .f32tof16_4 => .lanes 4
  | .f16tof32_1 => .lanes 1
  | .f16tof32_2 => .lanes 2
  | .f16tof32_3 => .lanes 3
  | .f16tof32_4 => .lanes 4
  | .sincos_1 => .lanes 1
  | .sincos_2 => .lanes 2
  | .sincos_3 => .lanes 3
  | .sincos_4 => .lanes 4
  | .hash_2x1 => .matrix 2 1
  | .hash_3x1 => .matrix 3 1
  | .hash_4x1 => .matrix 4 1
  | .hash_2x2 => .matrix 2 2
  | .hash_3x2 => .matrix 3 2
  | .hash_4x2 => .matrix 4 2
  | .hash_2x3 => .matrix 2 3
  | .hash_3x3 => .matrix 3 3
  | .hash_4x3 => .matrix 4 3
  | .hash_2x4 => .matrix 2 4
  | .hash_3x4 => .matrix 3 4
  | .hash_4x4 => .matrix 4 4
  | .hashwide_2x1 => .matrix 2 1
  | .hashwide_3x1 => .matrix 3 1
  | .hashwide_4x1 => .matrix 4 1
  | .hashwide_2x2 => .matrix 2 2
  | .hashwide_3x2 => .matrix 3 2
  | .hashwide_4x2 => .matrix 4 2
  | .hashwide_2x3 => .matrix 2 3
  | .hashwide_3x3 => .matrix 3 3
  | .hashwide_4x3 => .matrix 4 3
  | .hashwide_2x4 => .matrix 2 4
  | .hashwide_3x4 => .matrix 3 4
  | .hashwide_4x4 => .matrix 4 4
  | .seed => .nullary
  | .nextuint_1 => .lanes 1
  | .nextuint_2 => .lanes 2
  | .nextuint_3 => .lanes 3
  | .nextuint_4 => .lanes 4

end Sys2Proof
end

