-- ==== Sys2Proof/WellFormed.lean ====
section
/-! DEFINITION. What makes a command word legal, said as one predicate over its fields (30_encoding.md R71 to R77),
apart from the order in which the decoder tests it, and the ranges of a command's operands (R72, 43_hash.md R150). -/

namespace Sys2Proof

/-- HASH and HASHWIDE, the opcodes that take a shape (30_encoding.md R73). -/
def CommandFields.takesShape (f : CommandFields) : Bool := f.op == 0x4 || f.op == 0x5

/-- NOP and SEED, the opcodes whose lane field must be 0 (30_encoding.md R73). -/
def CommandFields.takesNothing (f : CommandFields) : Bool := f.op == 0x0 || f.op == 0x6

/-- The command word with these fields is one of the legal ones: the opcode is assigned (30_encoding.md R75), every field
that must be 0 is 0 (R76), and a shape has more than one row (R77). -/
def CommandFields.wellFormed (f : CommandFields) : Bool :=
  decide (f.op.toNat < 8) && f.rsv == 0 && (f.takesShape || f.cf == 0) && (!f.takesNothing || f.nf == 0) &&
    (!f.takesShape || f.nf != 0)

/-- The operands the count fields name: `N = NF + 1` lanes, or `R = NF + 1` rows and `C = CF + 1` columns
(30_encoding.md R72). -/
def CommandFields.operands (f : CommandFields) : Operands :=
  if f.takesNothing then .nullary
  else if f.takesShape then .matrix (f.nf.toNat + 1) (f.cf.toNat + 1)
  else .lanes (f.nf.toNat + 1)

/-- The ranges of operands: 1 to 4 lanes (30_encoding.md R72), 2 to 4 rows by 1 to 4 columns (43_hash.md R150). -/
def Operands.wellFormed : Operands → Bool
  | .nullary => true
  | .lanes n => decide (1 ≤ n) && decide (n ≤ 4)
  | .matrix r c => decide (2 ≤ r) && decide (r ≤ 4) && decide (1 ≤ c) && decide (c ≤ 4)

/-- A command is well formed when its operands are in range. Every constructor of `Instr` is (30_encoding.md R74). -/
def Instr.wellFormed (i : Instr) : Bool := i.operands.wellFormed

end Sys2Proof
end

