-- ==== Sys2Proof/Decode.lean ====
section
/-! DEFINITION. The decoder, total on every 32-bit word and rejecting by cause (30_encoding.md R79), and the encoder
(R80), each written from the encoding tables of 30_encoding.md. -/

namespace Sys2Proof

/-- The fields of a command word (30_encoding.md R71). -/
def commandFields (w : Word) : CommandFields where
  op := w.extractLsb' 0 4
  nf := w.extractLsb' 4 2
  cf := w.extractLsb' 6 2
  rsv := w.extractLsb' 8 24

/-- The opcodes whose column field is a field and not reserved: HASH (0x4) and HASHWIDE (0x5) (30_encoding.md R73). -/
def opTakesShape (op : BitVec 4) : Bool := op == 4 || op == 5

/-- The form of an N-lane command that the lane field selects, `N = NF + 1` (30_encoding.md R72). -/
def laneForm (nf : BitVec 2) (one two three four : Instr) : Instr :=
  match nf.toNat with
  | 0 => one
  | 1 => two
  | 2 => three
  | _ => four

/-- The form of a command on `R` rows that the row field selects, `R = NF + 1` (30_encoding.md R72). The field is not 0
here: R77 has rejected a shape of one row. -/
def rowForm (nf : BitVec 2) (two three four : Instr) : Instr :=
  match nf.toNat with
  | 1 => two
  | 2 => three
  | _ => four

/-- HASH of the shape the fields select (30_encoding.md R74). -/
def hashForm (nf cf : BitVec 2) : Instr :=
  match cf.toNat with
  | 0 => rowForm nf .hash_2x1 .hash_3x1 .hash_4x1
  | 1 => rowForm nf .hash_2x2 .hash_3x2 .hash_4x2
  | 2 => rowForm nf .hash_2x3 .hash_3x3 .hash_4x3
  | _ => rowForm nf .hash_2x4 .hash_3x4 .hash_4x4

/-- HASHWIDE of the shape the fields select (30_encoding.md R74). -/
def hashwideForm (nf cf : BitVec 2) : Instr :=
  match cf.toNat with
  | 0 => rowForm nf .hashwide_2x1 .hashwide_3x1 .hashwide_4x1
  | 1 => rowForm nf .hashwide_2x2 .hashwide_3x2 .hashwide_4x2
  | 2 => rowForm nf .hashwide_2x3 .hashwide_3x3 .hashwide_4x3
  | _ => rowForm nf .hashwide_2x4 .hashwide_3x4 .hashwide_4x4

/-- The command that the opcode map gives to fields which passed every test of the decoder (30_encoding.md R73, R79). -/
def selectCommand (f : CommandFields) : Instr :=
  match f.op.toNat with
  | 0 => .nop
  | 1 => laneForm f.nf .f32tof16_1 .f32tof16_2 .f32tof16_3 .f32tof16_4
  | 2 => laneForm f.nf .f16tof32_1 .f16tof32_2 .f16tof32_3 .f16tof32_4
  | 3 => laneForm f.nf .sincos_1 .sincos_2 .sincos_3 .sincos_4
  | 4 => hashForm f.nf f.cf
  | 5 => hashwideForm f.nf f.cf
  | 6 => .seed
  | _ => laneForm f.nf .nextuint_1 .nextuint_2 .nextuint_3 .nextuint_4

/-- The decoder (30_encoding.md R79). The order of the tests is the priority of the causes (60_exceptions.md R202). -/
def decode (w : Word) : Decoded :=
  let f := commandFields w
  if 8 ≤ f.op.toNat then .illegal .reservedOpcode
  else if f.rsv ≠ 0 then .illegal .reservedField
  else if f.cf ≠ 0 ∧ opTakesShape f.op = false then .illegal .reservedField
  else if f.nf ≠ 0 ∧ (f.op = 0 ∨ f.op = 6) then .illegal .reservedField
  else if f.nf = 0 ∧ opTakesShape f.op = true then .illegal .illegalShape
  else .legal (selectCommand f)

/-! The encoder. -/

/-- The fields of each command's word (30_encoding.md R73, R74). -/
def encodingFields : Instr → CommandFields
  | .nop => ⟨0, 0, 0, 0⟩
  | .f32tof16_1 => ⟨1, 0, 0, 0⟩
  | .f32tof16_2 => ⟨1, 1, 0, 0⟩
  | .f32tof16_3 => ⟨1, 2, 0, 0⟩
  | .f32tof16_4 => ⟨1, 3, 0, 0⟩
  | .f16tof32_1 => ⟨2, 0, 0, 0⟩
  | .f16tof32_2 => ⟨2, 1, 0, 0⟩
  | .f16tof32_3 => ⟨2, 2, 0, 0⟩
  | .f16tof32_4 => ⟨2, 3, 0, 0⟩
  | .sincos_1 => ⟨3, 0, 0, 0⟩
  | .sincos_2 => ⟨3, 1, 0, 0⟩
  | .sincos_3 => ⟨3, 2, 0, 0⟩
  | .sincos_4 => ⟨3, 3, 0, 0⟩
  | .hash_2x1 => ⟨4, 1, 0, 0⟩
  | .hash_3x1 => ⟨4, 2, 0, 0⟩
  | .hash_4x1 => ⟨4, 3, 0, 0⟩
  | .hash_2x2 => ⟨4, 1, 1, 0⟩
  | .hash_3x2 => ⟨4, 2, 1, 0⟩
  | .hash_4x2 => ⟨4, 3, 1, 0⟩
  | .hash_2x3 => ⟨4, 1, 2, 0⟩
  | .hash_3x3 => ⟨4, 2, 2, 0⟩
  | .hash_4x3 => ⟨4, 3, 2, 0⟩
  | .hash_2x4 => ⟨4, 1, 3, 0⟩
  | .hash_3x4 => ⟨4, 2, 3, 0⟩
  | .hash_4x4 => ⟨4, 3, 3, 0⟩
  | .hashwide_2x1 => ⟨5, 1, 0, 0⟩
  | .hashwide_3x1 => ⟨5, 2, 0, 0⟩
  | .hashwide_4x1 => ⟨5, 3, 0, 0⟩
  | .hashwide_2x2 => ⟨5, 1, 1, 0⟩
  | .hashwide_3x2 => ⟨5, 2, 1, 0⟩
  | .hashwide_4x2 => ⟨5, 3, 1, 0⟩
  | .hashwide_2x3 => ⟨5, 1, 2, 0⟩
  | .hashwide_3x3 => ⟨5, 2, 2, 0⟩
  | .hashwide_4x3 => ⟨5, 3, 2, 0⟩
  | .hashwide_2x4 => ⟨5, 1, 3, 0⟩
  | .hashwide_3x4 => ⟨5, 2, 3, 0⟩
  | .hashwide_4x4 => ⟨5, 3, 3, 0⟩
  | .seed => ⟨6, 0, 0, 0⟩
  | .nextuint_1 => ⟨7, 0, 0, 0⟩
  | .nextuint_2 => ⟨7, 1, 0, 0⟩
  | .nextuint_3 => ⟨7, 2, 0, 0⟩
  | .nextuint_4 => ⟨7, 3, 0, 0⟩

/-- A command word from its fields (30_encoding.md R71, R80: `(CF << 6) | (NF << 4) | OP`, with RSV above). -/
def packFields (f : CommandFields) : Word :=
  f.rsv.setWidth 32 <<< 8 ||| f.cf.setWidth 32 <<< 6 ||| f.nf.setWidth 32 <<< 4 ||| f.op.setWidth 32

/-- The command word of a command (30_encoding.md R80). -/
def encode (i : Instr) : Word := packFields (encodingFields i)

/-- The legal command a decoded word stands for, if it is one. -/
def Decoded.instr : Decoded → Option Instr
  | .legal i => some i
  | .illegal _ => none

/-- The command the decoder reads from a table word: every command is one 32-bit word (30_encoding.md R70), written to
CMD whole, so the word's bits from `nbits` up are 0 and there is no byte order to lay it out in (20_memory.md R58). -/
def decodeTableWord (nbits w : Nat) : Option Instr := (decode (BitVec.ofNat 32 (w % 2 ^ nbits))).instr

end Sys2Proof
end

