-- ==== Sys2Proof/Config.lean ====
section
/-! DEFINITION. What an implementation fixes (00_scope.md R8). A parameter that the spec marks OPEN is an opaque
constant: nothing can be proved of its value, so a theorem holds for every value. The constraints that the spec
puts on the open functions and tables are put on them where they are used (Machine/SinCos.lean, Machine/Hash.lean). -/

namespace Sys2Proof

/-- The two values of `HALF_UNDERFLOW` (00_scope.md R8, 41_half_codec.md R105). -/
inductive HalfUnderflow where
  /-- Every magnitude below 2^-24 narrows to signed zero. -/
  | flushBelowMinSubnormal
  /-- IEEE gradual underflow, for models of variants. -/
  | gradualRne
deriving DecidableEq, Repr

/-- `HALF_UNDERFLOW` in this hardware (00_scope.md R8; log 10). -/
def Config.halfUnderflow : HalfUnderflow := .flushBelowMinSubnormal

/-- `SEED_ZERO_SUBST` (00_scope.md R8, 44_prng.md R176). -/
def Config.seedZeroSubst : Word := 0x9E3779B9

/-- The open part of `SINCOS_FN`, before the constraints of 42_sincos.md R131 and R133 are put on it (OPEN; log 1). -/
opaque Config.sincosRaw : Word → Word × Word

/-- `SINCOS_MAX_ERR` (OPEN; 42_sincos.md R135): named only by a hypothesis (Safety.lean; log 1). -/
opaque Config.sincosMaxErr : Rat

/-- The open part of `HASH_K[R,C][c][r]`, before the constraints of 43_hash.md R152 (OPEN; log 2). -/
opaque Config.hashKRaw : (rows cols : Nat) → (c r : Fin 4) → Word

/-- The open part of `HASH_C[R,C]`, before the constraint of 43_hash.md R152 (OPEN; log 2). -/
opaque Config.hashCRaw : (rows cols : Nat) → Word

/-- The open part of `WIDE_K[R,C][c][r]`, before the constraints of 43_hash.md R152 (OPEN; log 2). -/
opaque Config.wideKRaw : (rows cols : Nat) → (c r : Fin 4) → Word

/-- `WIDE_C[R,C][r]`, which R152 does not constrain (OPEN; log 2). -/
opaque Config.wideC : (rows cols : Nat) → (r : Fin 4) → Word

/-- Which 256-byte page of the hosts' address space holds the window (OPEN; log 6). -/
opaque Config.blockPage : Nat

/-- `BLOCK_BASE`, a multiple of 0x100 (00_scope.md R8, 20_memory.md R51). -/
def Config.blockBase : Nat := Config.blockPage * 0x100

/-- One less than `NUM_HOSTS` (OPEN; log 3). -/
opaque Config.otherHosts : Nat

/-- `NUM_HOSTS`, at least 1 (00_scope.md R8, 20_memory.md R50). No access depends on it. -/
def Config.numHosts : Nat := Config.otherHosts + 1

/-- `CMD_LATENCY[op]` (OPEN, 70_reset_and_hazards.md R236): a function of the command and never of operand values. It
is unobservable: nothing reads it (log 8). -/
opaque Config.cmdLatency : Instr → Nat

/-- `UMNK_PART_ID` (OPEN, 00_scope.md R2): nothing reads it (log 8). -/
opaque Config.partId : String

end Sys2Proof
end

