-- ==== Sys2Proof/Machine/State.lean ====
section
/-! DEFINITION. The machine's state as plain data: the whole architectural state of 10_state.md R32, and two lists of the
model's own that stand for the port's surroundings (the events it will perform, the responses it has given). -/

namespace Sys2Proof.Machine

/-- The width of a host access: so many bytes, or a burst (20_memory.md R52). -/
inductive AccessWidth where
  | bytes (n : Nat)
  | burst
deriving DecidableEq, Repr

/-- What a host access does. The data of a write is the 32-bit word a legal write carries (20_memory.md R52); an
access of another width is a bus error whatever it carries. -/
inductive AccessOp where
  | read
  | write (value : Word)
deriving DecidableEq, Repr

/-- A host access that has reached the window, at a byte offset from BLOCK_BASE (20_memory.md R51). -/
structure Access where
  /-- Which host makes the access. The block does not see it (20_memory.md R50); only the response goes to it. -/
  host : Nat
  /-- Byte offset in the 256-byte window. -/
  offset : BitVec 8
  width : AccessWidth
  op : AccessOp
deriving DecidableEq, Repr

/-- What happens at the port between two steps: a host access, or a reset (70_reset_and_hazards.md R230). -/
inductive PortEvent where
  | access (a : Access)
  | reset
deriving DecidableEq, Repr

/-- The response a host gets (20_memory.md R55, R56, R60). -/
inductive Reply where
  /-- A legal read returned this value. -/
  | readData (host : Nat) (value : Word)
  /-- A legal write, and the command it executed, has completed. -/
  | writeDone (host : Nat)
  /-- A bus error: an error response without data. -/
  | busError (host : Nat)
deriving DecidableEq, Repr

/-- The state of the block (10_state.md R32) and of its port. -/
structure State where
  /-- Operand registers `A[0..15]` (R22). -/
  a : Vector Word 16
  /-- Result registers `Y[0..7]` (R23). -/
  y : Vector Word 8
  /-- `S`, the generator's state, read at PRNG_STATE (R24). -/
  prng : Word
  /-- `LASTCMD`, the last word written to CMD (R26). -/
  lastcmd : Word
  /-- `STATUS.ERR` (R27). -/
  err : Bool
  /-- `STATUS.CAUSE` (R27). -/
  cause : BitVec 4
  /-- The model's own: the events the port will perform, in the order it accepts them (20_memory.md R64; log 3). -/
  pending : List PortEvent
  /-- The model's own: the responses given so far, newest first (log 4). -/
  replies : List Reply
deriving DecidableEq, Repr

/-- Why a step stops with a fault. -/
inductive Fault where
  /-- A host access that 20_memory.md R55 makes a bus error. Raised by the port, never by a command. The rules ask
  for it to be a fault of the access (R55, 60_exceptions.md R206). Safe: the block's state is unchanged, and
  `answerBusError` (Machine/Port.lean) is the state from which the block serves the next access (log 5). -/
  | busError
deriving DecidableEq, Repr

/-- Why a step is refused. -/
inductive Refusal where
  /-- An instruction without a meaning. Raised by no arm of `exec`: every command has its meaning. Safe. -/
  | notModelled (mnemonic : String)
deriving DecidableEq, Repr

/-- The block right after reset: every register at the value of 10_state.md R32 and 70_reset_and_hazards.md R230, with
no access waiting (R231: "idle and waits for host accesses") and no response given. -/
def State.reset : State where
  a := Vector.replicate 16 0
  y := Vector.replicate 8 0
  prng := Config.seedZeroSubst
  lastcmd := 0
  err := false
  cause := 0
  pending := []
  replies := []

end Sys2Proof.Machine
end

