-- ==== Sys2Proof/Machine/Flags.lean ====
section
/-! DEFINITION. Every flag computation of the block: the STATUS word, the cause codes, and what sets and clears ERR and
CAUSE (10_state.md R27, 60_exceptions.md R201 to R204, R211). The block has no other flag (10_state.md R28). -/

namespace Sys2Proof.Machine

/-- The cause codes (60_exceptions.md R201). -/
def causeCode : IllegalCause → BitVec 4
  | .reservedOpcode => 1
  | .reservedField => 2
  | .illegalShape => 3

/-- The word a read of STATUS returns: `{24'b0, CAUSE, 3'b0, ERR}` (20_memory.md R53, R56). -/
def statusWord (err : Bool) (cause : BitVec 4) : Word := cause.setWidth 32 <<< 4 ||| (BitVec.ofBool err).setWidth 32

/-- ERR and CAUSE after an illegal command: recorded if ERR was 0, else unchanged (60_exceptions.md R203, R204). -/
def recordIllegal (c : IllegalCause) (err : Bool) (cause : BitVec 4) : Bool × BitVec 4 :=
  if err = false then (true, causeCode c) else (err, cause)

/-- ERR and CAUSE after a host write of `v` to STATUS: bit 0 written 1 clears both, and no other bit counts
(20_memory.md R57, 60_exceptions.md R211). -/
def clearByWrite (v : Word) (err : Bool) (cause : BitVec 4) : Bool × BitVec 4 :=
  if v.getLsbD 0 = true then (false, 0) else (err, cause)

end Sys2Proof.Machine
end

