-- ==== Sys2Proof/Machine/Operands.lean ====
section
/-! DEFINITION. Every operand form: which registers a lane count or a shape names (00_scope.md R13, 43_hash.md R151), and
how a command reads a register's bits (10_state.md R31). -/

namespace Sys2Proof.Machine

/-- The lanes of an N-lane command, `0 ≤ i < N`, in the lane order x, y, z, w (00_scope.md R13). -/
def lanes (n : Nat) : List (Fin 4) := [0, 1, 2, 3].take n

/-- Lane `i` of an operand is `A[i]` (00_scope.md R13). -/
def laneA (i : Fin 4) : Fin 16 := ⟨i.val, by omega⟩

/-- Element (row `r`, column `c`) of a shape is `A[4*c + r]` (43_hash.md R151). -/
def elementA (r c : Fin 4) : Fin 16 := ⟨4 * c.val + r.val, by omega⟩

/-- Lane `i` of a result is `Y[i]` (41_half_codec.md R110, 44_prng.md R177); for SINCOS it is the sine (42_sincos.md R136). -/
def lowY (i : Fin 4) : Fin 8 := ⟨i.val, by omega⟩

/-- The cosine of lane `i` is `Y[4+i]` (42_sincos.md R136). -/
def highY (i : Fin 4) : Fin 8 := ⟨4 + i.val, by omega⟩

/-- A lane read as a half: bits 15:0, bits 31:16 ignored (41_half_codec.md R120). -/
def halfOperand (v : Word) : Half := v.extractLsb' 0 16

/-- A half as a result: bits 15:0, with bits 31:16 zero (41_half_codec.md R110). -/
def halfResult (h : Half) : Word := h.setWidth 32

end Sys2Proof.Machine
end

