-- ==== Sys2Proof/Machine/Ops.lean ====
section
/-! DEFINITION. The named operations over the registers, and the block's one way to report an error: raising an illegal
command, with its recovery beside it (60_exceptions.md R203, R211). -/

namespace Sys2Proof.Machine

/-- Read `A[i]` (10_state.md R22). -/
def readA (i : Fin 16) (s : State) : Word := s.a[i]

/-- Read `Y[i]` (10_state.md R23). -/
def readY (i : Fin 8) (s : State) : Word := s.y[i]

/-- `A[i] <- v`, done by a host only (10_state.md R22). -/
def writeA (i : Fin 16) (v : Word) (s : State) : State := { s with a := s.a.set i v }

/-- `Y[i] <- v`, done by a command only (10_state.md R23). -/
def writeY (i : Fin 8) (v : Word) (s : State) : State := { s with y := s.y.set i v }

/-- `S <- v`, done by SEED and NEXTUINT only (10_state.md R24). -/
def setPrng (v : Word) (s : State) : State := { s with prng := v }

/-- `LASTCMD <- w` (10_state.md R26). -/
def setLastcmd (w : Word) (s : State) : State := { s with lastcmd := w }

/-- `STATUS.ERR` and `STATUS.CAUSE` together. -/
def setStatus (f : Bool × BitVec 4) (s : State) : State := { s with err := f.1, cause := f.2 }

/-- The events still to be performed. -/
def setPending (l : List PortEvent) (s : State) : State := { s with pending := l }

/-- Give a host its response. -/
def respond (r : Reply) (s : State) : State := { s with replies := r :: s.replies }

/-- `for i in 0 .. N-1: Y[i] <- f i`, the results computed before any is written (40_dispatch.md R91). -/
def writeLanes (n : Nat) (f : Fin 4 → Word) (s : State) : State :=
  (lanes n).foldl (fun t i => writeY (lowY i) (f i) t) s

/-- `for i in 0 .. N-1: Y[i] <- f i; Y[4+i] <- g i`. -/
def writeLanePairs (n : Nat) (f : Fin 4 → Word × Word) (s : State) : State :=
  (lanes n).foldl (fun t i => writeY (highY i) (f i).2 (writeY (lowY i) (f i).1 t)) s

/-- `raise IllegalCommand(cause)` (60_exceptions.md R203): the block's only error entry. It saves no pc, changes no mode
and goes to no vector (R209): it records the cause and does nothing else. -/
def raiseIllegalCommand (c : IllegalCause) (s : State) : State := setStatus (recordIllegal c s.err s.cause) s

/-- The only recovery: a host write of `v` to STATUS (60_exceptions.md R211, 20_memory.md R57). -/
def writeStatus (v : Word) (s : State) : State := setStatus (clearByWrite v s.err s.cause) s

end Sys2Proof.Machine
end

