-- ==== Sys2Proof/Machine/Control.lean ====
section
/-! DEFINITION. Command control: NOP (40_dispatch.md R94), the only command without an effect on the units. -/

namespace Sys2Proof.Machine

/-- NOP (40_dispatch.md R94): no effect. LASTCMD is set by the CMD write itself (R90). -/
def execNop (s : State) : Host.Outcome State Fault Refusal := .next s

end Sys2Proof.Machine
end

