-- ==== Sys2Proof/Machine/Float.lean ====
section
/-! DEFINITION. The two float formats: fields, classes and exact values (00_scope.md R12, 41_half_codec.md R100 to R102).
Magnitudes are exact natural numbers of a unit: 2^-149 for binary32, 2^-24 for a half. -/

namespace Sys2Proof.Machine

/-- `a[31]`. -/
def sign32 (a : Word) : BitVec 1 := a.extractLsb' 31 1

/-- `a[30:23]`. -/
def exp32 (a : Word) : BitVec 8 := a.extractLsb' 23 8

/-- `a[22:0]`. -/
def frac32 (a : Word) : BitVec 23 := a.extractLsb' 0 23

/-- `isNaN32` (00_scope.md R12). -/
def isNaN32 (a : Word) : Bool := exp32 a == 0xFF && frac32 a != 0

/-- `isInf32` (00_scope.md R12). -/
def isInf32 (a : Word) : Bool := exp32 a == 0xFF && frac32 a == 0

/-- Neither NaN nor infinity. -/
def isFinite32 (a : Word) : Bool := exp32 a != 0xFF

/-- A binary32 NaN is quiet iff `a[22] = 1` (41_half_codec.md R102). -/
def isQuiet32 (a : Word) : Bool := isNaN32 a && a.getLsbD 22

/-- `|val32(a)|` of a finite encoding, in units of 2^-149 (41_half_codec.md R101). -/
def mag32 (a : Word) : Nat :=
  if exp32 a = 0 then (frac32 a).toNat else (2 ^ 23 + (frac32 a).toNat) * 2 ^ ((exp32 a).toNat - 1)

/-- `val32(a)`, the exact value of a finite encoding (00_scope.md R12). -/
def val32 (a : Word) : Rat := (if sign32 a = 1 then -1 else 1) * (mag32 a : Rat) / 2 ^ 149

/-- `h[15]`. -/
def sign16 (h : Half) : BitVec 1 := h.extractLsb' 15 1

/-- `h[14:10]`. -/
def exp16 (h : Half) : BitVec 5 := h.extractLsb' 10 5

/-- `h[9:0]`. -/
def frac16 (h : Half) : BitVec 10 := h.extractLsb' 0 10

/-- `isNaN16` (00_scope.md R12). -/
def isNaN16 (h : Half) : Bool := exp16 h == 0x1F && frac16 h != 0

/-- `isInf16` (00_scope.md R12). -/
def isInf16 (h : Half) : Bool := exp16 h == 0x1F && frac16 h == 0

/-- Neither NaN nor infinity. -/
def isFinite16 (h : Half) : Bool := exp16 h != 0x1F

/-- A half NaN is quiet iff `h[9] = 1` (41_half_codec.md R102). -/
def isQuiet16 (h : Half) : Bool := isNaN16 h && h.getLsbD 9

/-- `|val16(h)|` of a finite half, in units of 2^-24 (41_half_codec.md R100). -/
def mag16 (h : Half) : Nat :=
  if exp16 h = 0 then (frac16 h).toNat else (1024 + (frac16 h).toNat) * 2 ^ ((exp16 h).toNat - 1)

/-- `val16(h)`, the exact value of a finite half (00_scope.md R12). -/
def val16 (h : Half) : Rat := (if sign16 h = 1 then -1 else 1) * (mag16 h : Rat) / 2 ^ 24

end Sys2Proof.Machine
end

