-- ==== Sys2Proof/Machine/Half.lean ====
section
/-! DEFINITION. The half-precision codec (41_half_codec.md): narrowing `f2h`, widening `h2f`, and the commands F32TOF16
and F16TOF32. -/

namespace Sys2Proof.Machine

/-- `(s << 15) | code`. -/
def halfOf (s : BitVec 1) (code : Nat) : Half := s.setWidth 16 <<< 15 ||| BitVec.ofNat 16 code

/-- `sig / 2^sh` rounded to nearest, ties to even (41_half_codec.md R104, R108). -/
def roundShiftEven (sig sh : Nat) : Nat :=
  let n := sig >>> sh
  let rem := sig % 2 ^ sh
  let half := 2 ^ (sh - 1)
  if rem > half ∨ (rem = half ∧ n % 2 = 1) then n + 1 else n

/-- The 15-bit half code of a value `sig * 2^(E - 23)` with `E` below 16 (41_half_codec.md R108). A carry out of the
fraction steps the exponent; from the largest one it gives 0x7C00, the code of infinity. -/
def roundedHalfCode (E : Int) (sig : Nat) : Nat :=
  let sh := if E ≥ -14 then 13 else (-1 - E).toNat
  let hx := if E ≥ -14 then (E + 15).toNat else 0
  let n := roundShiftEven sig sh
  if hx ≠ 0 then hx * 1024 + n - 1024 else n

/-- `f2h(a)`, the half that a lane word narrows to (41_half_codec.md R103, bit-level R108), for either value of
`HALF_UNDERFLOW` (R105). -/
def f2h (mode : HalfUnderflow) (a : Word) : Half :=
  let s := sign32 a
  let e := (exp32 a).toNat
  let f := (frac32 a).toNat
  let E : Int := e - 127
  if e = 0xFF ∧ f ≠ 0 then halfOf s 0x7E00
  else if e = 0xFF then halfOf s 0x7C00
  else if e = 0 then halfOf s 0
  else if E ≥ 16 then halfOf s 0x7C00
  else if mode = .flushBelowMinSubnormal ∧ E < -24 then halfOf s 0
  else if mode = .gradualRne ∧ E < -25 then halfOf s 0
  else halfOf s (roundedHalfCode E (0x800000 + f))

/-- `h2f(h)`, the word that a half widens to, exactly (41_half_codec.md R112, R113, bit-level R114). -/
def h2f (h : Half) : Word :=
  let s := (sign16 h).setWidth 32 <<< 31
  let e := (exp16 h).toNat
  let m := (frac16 h).toNat
  if e = 0x1F then s ||| 0x7F800000 ||| BitVec.ofNat 32 (m <<< 13)
  else if e = 0 ∧ m = 0 then s
  else if e = 0 then
    let p := m.log2
    s ||| BitVec.ofNat 32 ((p + 103) <<< 23) ||| BitVec.ofNat 32 (((m <<< (10 - p)) &&& 0x3FF) <<< 13)
  else s ||| BitVec.ofNat 32 ((e + 112) <<< 23) ||| BitVec.ofNat 32 (m <<< 13)

/-- `for i in 0 .. N-1: Y[i] <- zext_32(f2h(A[i]))` (41_half_codec.md R110). -/
def narrowLanes (n : Nat) (s : State) : State :=
  writeLanes n (fun i => halfResult (f2h Config.halfUnderflow (readA (laneA i) s))) s

/-- `for i in 0 .. N-1: Y[i] <- h2f(A[i][15:0])` (41_half_codec.md R120). -/
def widenLanes (n : Nat) (s : State) : State :=
  writeLanes n (fun i => h2f (halfOperand (readA (laneA i) s))) s

/-- F32TOF16.1 (41_half_codec.md R110): narrow 1 lane(s) into `Y`. -/
def execF32tof16_1 (s : State) : Host.Outcome State Fault Refusal := .next (narrowLanes 1 s)

/-- F32TOF16.2 (41_half_codec.md R110): narrow 2 lane(s) into `Y`. -/
def execF32tof16_2 (s : State) : Host.Outcome State Fault Refusal := .next (narrowLanes 2 s)

/-- F32TOF16.3 (41_half_codec.md R110): narrow 3 lane(s) into `Y`. -/
def execF32tof16_3 (s : State) : Host.Outcome State Fault Refusal := .next (narrowLanes 3 s)

/-- F32TOF16.4 (41_half_codec.md R110): narrow 4 lane(s) into `Y`. -/
def execF32tof16_4 (s : State) : Host.Outcome State Fault Refusal := .next (narrowLanes 4 s)

/-- F16TOF32.1 (41_half_codec.md R120): widen 1 lane(s) into `Y`. -/
def execF16tof32_1 (s : State) : Host.Outcome State Fault Refusal := .next (widenLanes 1 s)

/-- F16TOF32.2 (41_half_codec.md R120): widen 2 lane(s) into `Y`. -/
def execF16tof32_2 (s : State) : Host.Outcome State Fault Refusal := .next (widenLanes 2 s)

/-- F16TOF32.3 (41_half_codec.md R120): widen 3 lane(s) into `Y`. -/
def execF16tof32_3 (s : State) : Host.Outcome State Fault Refusal := .next (widenLanes 3 s)

/-- F16TOF32.4 (41_half_codec.md R120): widen 4 lane(s) into `Y`. -/
def execF16tof32_4 (s : State) : Host.Outcome State Fault Refusal := .next (widenLanes 4 s)

end Sys2Proof.Machine
end

