-- ==== Sys2Proof/Machine/Hash.lean ====
section
/-! DEFINITION. The integer hash mixer (43_hash.md): open constant tables under the constraints of R152, the narrow hash
and the wide hash modulo 2^32 (R153), and the commands HASH and HASHWIDE. -/

namespace Sys2Proof.Machine

/-- The entries of a table for one shape, column by column (43_hash.md R152). -/
def tableEntries (rows cols : Nat) (K : Fin 4 → Fin 4 → Word) : List Word :=
  (lanes cols).flatMap fun c => (lanes rows).map fun r => K c r

/-- The constraints on a table for one shape: every entry odd, the entries pairwise distinct (43_hash.md R152). -/
def tableLegal (rows cols : Nat) (K : Fin 4 → Fin 4 → Word) : Bool :=
  (tableEntries rows cols K).all (fun k => k.getLsbD 0) && decide (tableEntries rows cols K).Nodup

/-- The table that an open table `raw` gives: `raw` itself where it meets the constraints; a `raw` that breaks them is
no table of the block, and the odd numbers 1, 3, 5, … stand in. So the tables of this form are, on the shape, exactly the
tables that meet R152 (log 2, Laws/Hash.lean). -/
def tableOf (rows cols : Nat) (raw : Fin 4 → Fin 4 → Word) (c r : Fin 4) : Word :=
  if tableLegal rows cols raw then raw c r else BitVec.ofNat 32 (2 * (4 * c.val + r.val) + 1)

/-- `HASH_K[R,C][c][r]` (43_hash.md R152). -/
def hashK (rows cols : Nat) : Fin 4 → Fin 4 → Word := tableOf rows cols (Config.hashKRaw rows cols)

/-- `HASH_C[R,C]`, any odd word (43_hash.md R152). -/
def hashC (rows cols : Nat) : Word := Config.hashCRaw rows cols ||| 1

/-- `WIDE_K[R,C][c][r]` (43_hash.md R152). -/
def wideK (rows cols : Nat) : Fin 4 → Fin 4 → Word := tableOf rows cols (Config.wideKRaw rows cols)

/-- The narrow hash of a shape for given constants: `acc <- acc + A[4*c + r] * K[c][r]` over columns and rows, from the
final constant (43_hash.md R154, R155). -/
def hashNarrow (rows cols : Nat) (K : Fin 4 → Fin 4 → Word) (k0 : Word) (s : State) : Word :=
  (lanes cols).foldl (fun acc c => (lanes rows).foldl (fun acc r => acc + readA (elementA r c) s * K c r) acc) k0

/-- Lane `r` of the wide hash of a shape for given constants (43_hash.md R156, R157). -/
def hashWideLane (cols : Nat) (K : Fin 4 → Fin 4 → Word) (k0 : Fin 4 → Word) (s : State) (r : Fin 4) : Word :=
  (lanes cols).foldl (fun acc c => acc + readA (elementA r c) s * K c r) (k0 r)

/-- `Y[0] <- hashval(R, C)` (43_hash.md R155). -/
def hashShape (rows cols : Nat) (s : State) : State :=
  writeY 0 (hashNarrow rows cols (hashK rows cols) (hashC rows cols) s) s

/-- `for r in 0 .. R-1: Y[r] <- wideval(R, C)[r]` (43_hash.md R157). -/
def hashwideShape (rows cols : Nat) (s : State) : State :=
  writeLanes rows (hashWideLane cols (wideK rows cols) (Config.wideC rows cols) s) s

/-- HASH.2x1 (43_hash.md R155): the narrow hash of the shape into `Y[0]`. -/
def execHash_2x1 (s : State) : Host.Outcome State Fault Refusal := .next (hashShape 2 1 s)

/-- HASH.3x1 (43_hash.md R155): the narrow hash of the shape into `Y[0]`. -/
def execHash_3x1 (s : State) : Host.Outcome State Fault Refusal := .next (hashShape 3 1 s)

/-- HASH.4x1 (43_hash.md R155): the narrow hash of the shape into `Y[0]`. -/
def execHash_4x1 (s : State) : Host.Outcome State Fault Refusal := .next (hashShape 4 1 s)

/-- HASH.2x2 (43_hash.md R155): the narrow hash of the shape into `Y[0]`. -/
def execHash_2x2 (s : State) : Host.Outcome State Fault Refusal := .next (hashShape 2 2 s)

/-- HASH.3x2 (43_hash.md R155): the narrow hash of the shape into `Y[0]`. -/
def execHash_3x2 (s : State) : Host.Outcome State Fault Refusal := .next (hashShape 3 2 s)

/-- HASH.4x2 (43_hash.md R155): the narrow hash of the shape into `Y[0]`. -/
def execHash_4x2 (s : State) : Host.Outcome State Fault Refusal := .next (hashShape 4 2 s)

/-- HASH.2x3 (43_hash.md R155): the narrow hash of the shape into `Y[0]`. -/
def execHash_2x3 (s : State) : Host.Outcome State Fault Refusal := .next (hashShape 2 3 s)

/-- HASH.3x3 (43_hash.md R155): the narrow hash of the shape into `Y[0]`. -/
def execHash_3x3 (s : State) : Host.Outcome State Fault Refusal := .next (hashShape 3 3 s)

/-- HASH.4x3 (43_hash.md R155): the narrow hash of the shape into `Y[0]`. -/
def execHash_4x3 (s : State) : Host.Outcome State Fault Refusal := .next (hashShape 4 3 s)

/-- HASH.2x4 (43_hash.md R155): the narrow hash of the shape into `Y[0]`. -/
def execHash_2x4 (s : State) : Host.Outcome State Fault Refusal := .next (hashShape 2 4 s)

/-- HASH.3x4 (43_hash.md R155): the narrow hash of the shape into `Y[0]`. -/
def execHash_3x4 (s : State) : Host.Outcome State Fault Refusal := .next (hashShape 3 4 s)

/-- HASH.4x4 (43_hash.md R155): the narrow hash of the shape into `Y[0]`. -/
def execHash_4x4 (s : State) : Host.Outcome State Fault Refusal := .next (hashShape 4 4 s)

/-- HASHWIDE.2x1 (43_hash.md R157): the wide hash of the shape, a lane per row. -/
def execHashwide_2x1 (s : State) : Host.Outcome State Fault Refusal := .next (hashwideShape 2 1 s)

/-- HASHWIDE.3x1 (43_hash.md R157): the wide hash of the shape, a lane per row. -/
def execHashwide_3x1 (s : State) : Host.Outcome State Fault Refusal := .next (hashwideShape 3 1 s)

/-- HASHWIDE.4x1 (43_hash.md R157): the wide hash of the shape, a lane per row. -/
def execHashwide_4x1 (s : State) : Host.Outcome State Fault Refusal := .next (hashwideShape 4 1 s)

/-- HASHWIDE.2x2 (43_hash.md R157): the wide hash of the shape, a lane per row. -/
def execHashwide_2x2 (s : State) : Host.Outcome State Fault Refusal := .next (hashwideShape 2 2 s)

/-- HASHWIDE.3x2 (43_hash.md R157): the wide hash of the shape, a lane per row. -/
def execHashwide_3x2 (s : State) : Host.Outcome State Fault Refusal := .next (hashwideShape 3 2 s)

/-- HASHWIDE.4x2 (43_hash.md R157): the wide hash of the shape, a lane per row. -/
def execHashwide_4x2 (s : State) : Host.Outcome State Fault Refusal := .next (hashwideShape 4 2 s)

/-- HASHWIDE.2x3 (43_hash.md R157): the wide hash of the shape, a lane per row. -/
def execHashwide_2x3 (s : State) : Host.Outcome State Fault Refusal := .next (hashwideShape 2 3 s)

/-- HASHWIDE.3x3 (43_hash.md R157): the wide hash of the shape, a lane per row. -/
def execHashwide_3x3 (s : State) : Host.Outcome State Fault Refusal := .next (hashwideShape 3 3 s)

/-- HASHWIDE.4x3 (43_hash.md R157): the wide hash of the shape, a lane per row. -/
def execHashwide_4x3 (s : State) : Host.Outcome State Fault Refusal := .next (hashwideShape 4 3 s)

/-- HASHWIDE.2x4 (43_hash.md R157): the wide hash of the shape, a lane per row. -/
def execHashwide_2x4 (s : State) : Host.Outcome State Fault Refusal := .next (hashwideShape 2 4 s)

/-- HASHWIDE.3x4 (43_hash.md R157): the wide hash of the shape, a lane per row. -/
def execHashwide_3x4 (s : State) : Host.Outcome State Fault Refusal := .next (hashwideShape 3 4 s)

/-- HASHWIDE.4x4 (43_hash.md R157): the wide hash of the shape, a lane per row. -/
def execHashwide_4x4 (s : State) : Host.Outcome State Fault Refusal := .next (hashwideShape 4 4 s)

end Sys2Proof.Machine
end

