-- ==== Sys2Proof/Machine/Prng.lean ====
section
/-! DEFINITION. The pseudo-random generator (44_prng.md): xorshift32, its inverse, and the commands SEED and NEXTUINT. -/

namespace Sys2Proof.Machine

/-- `x ^ (x << k)`. -/
def xorShiftLeft (k : Nat) (x : Word) : Word := x ^^^ (x <<< k)

/-- `x ^ (x >> k)`. -/
def xorShiftRight (k : Nat) (x : Word) : Word := x ^^^ (x >>> k)

/-- `next`, the update function: xorshift32 with shifts (13, 17, 5) (44_prng.md R171). -/
def xorshift32 (x : Word) : Word := xorShiftLeft 5 (xorShiftRight 17 (xorShiftLeft 13 x))

/-- `prev`, its inverse (44_prng.md R172). -/
def xorshift32Inv (y : Word) : Word :=
  let y := y ^^^ (y <<< 5) ^^^ (y <<< 10) ^^^ (y <<< 15) ^^^ (y <<< 20) ^^^ (y <<< 25) ^^^ (y <<< 30)
  let y := y ^^^ (y >>> 17)
  y ^^^ (y <<< 13) ^^^ (y <<< 26)

/-- The state a seed loads: itself, or `SEED_ZERO_SUBST` for 0 (44_prng.md R175, R176). -/
def seedValue (v : Word) : Word := if v = 0 then Config.seedZeroSubst else v

/-- `S <- A[0]`, with the zero seed replaced (44_prng.md R175). -/
def seedPrng (s : State) : State := setPrng (seedValue (readA 0 s)) s

/-- One draw into lane `i`: `S <- next(S); Y[i] <- S`, the new state being the value drawn (44_prng.md R174). -/
def drawLane (s : State) (i : Fin 4) : State :=
  writeY (lowY i) (xorshift32 s.prng) (setPrng (xorshift32 s.prng) s)

/-- `for i in 0 .. N-1`, a draw into lane `i` (44_prng.md R177). -/
def drawLanes (n : Nat) (s : State) : State := (lanes n).foldl drawLane s

/-- SEED (44_prng.md R175): load the generator's state from `A[0]`. -/
def execSeed (s : State) : Host.Outcome State Fault Refusal := .next (seedPrng s)

/-- NEXTUINT.1 (44_prng.md R177): 1 draw(s), lane by lane. -/
def execNextuint_1 (s : State) : Host.Outcome State Fault Refusal := .next (drawLanes 1 s)

/-- NEXTUINT.2 (44_prng.md R177): 2 draw(s), lane by lane. -/
def execNextuint_2 (s : State) : Host.Outcome State Fault Refusal := .next (drawLanes 2 s)

/-- NEXTUINT.3 (44_prng.md R177): 3 draw(s), lane by lane. -/
def execNextuint_3 (s : State) : Host.Outcome State Fault Refusal := .next (drawLanes 3 s)

/-- NEXTUINT.4 (44_prng.md R177): 4 draw(s), lane by lane. -/
def execNextuint_4 (s : State) : Host.Outcome State Fault Refusal := .next (drawLanes 4 s)

end Sys2Proof.Machine
end

