-- ==== Sys2Proof/Machine/SinCos.lean ====
section
/-! DEFINITION. The combined SinCos evaluator (42_sincos.md): `SINCOS_FN` is an open function of the operand, of which
only R131 (the identity bound) and R133 (non-finite inputs) are known, and the command SINCOS. -/

namespace Sys2Proof.Machine

/-- The word both results have for a NaN or an infinity (42_sincos.md R133). -/
def sincosNaN : Word := 0x7FC00000

/-- The identity bound on a result pair (42_sincos.md R131): both finite, and `|s^2 + c^2 - 1| ≤ 1e-6` in exact
arithmetic. Magnitudes are in units of 2^-149, so 1 is `2^149 * 2^149` after squaring. -/
def sincosPairOk (p : Word × Word) : Bool :=
  isFinite32 p.1 && isFinite32 p.2 &&
    decide (((mag32 p.1 ^ 2 + mag32 p.2 ^ 2 : Nat) - (2 ^ 149 * 2 ^ 149 : Nat) : Int).natAbs * 1000000 ≤ 2 ^ 149 * 2 ^ 149)

/-- The evaluator that an open function `raw` gives: for a non-finite input the pair of R133; for a finite one `raw`'s
pair where it meets R131. A `raw` that breaks R131 at some input is no `SINCOS_FN`; there the pair (0, 1.0), which meets
the bound, stands in. So the evaluators of this form are exactly the functions that meet R131 and R133 (log 1,
Laws/SinCos.lean). -/
def sincosOf (raw : Word → Word × Word) (x : Word) : Word × Word :=
  if isFinite32 x = false then (sincosNaN, sincosNaN)
  else if sincosPairOk (raw x) then raw x
  else (0x00000000, 0x3F800000)

/-- `SINCOS_FN` (42_sincos.md R130): fixed, total, a function of the input bits alone, and otherwise unknown (R135). -/
def sincosFn (x : Word) : Word × Word := sincosOf Config.sincosRaw x

/-- `for i in 0 .. N-1: (s, c) <- SINCOS_FN(A[i]); Y[i] <- s; Y[4+i] <- c` (42_sincos.md R136). -/
def sincosLanes (n : Nat) (s : State) : State :=
  writeLanePairs n (fun i => sincosFn (readA (laneA i) s)) s

/-- SINCOS.1 (42_sincos.md R136): sine and cosine of 1 lane(s). -/
def execSincos_1 (s : State) : Host.Outcome State Fault Refusal := .next (sincosLanes 1 s)

/-- SINCOS.2 (42_sincos.md R136): sine and cosine of 2 lane(s). -/
def execSincos_2 (s : State) : Host.Outcome State Fault Refusal := .next (sincosLanes 2 s)

/-- SINCOS.3 (42_sincos.md R136): sine and cosine of 3 lane(s). -/
def execSincos_3 (s : State) : Host.Outcome State Fault Refusal := .next (sincosLanes 3 s)

/-- SINCOS.4 (42_sincos.md R136): sine and cosine of 4 lane(s). -/
def execSincos_4 (s : State) : Host.Outcome State Fault Refusal := .next (sincosLanes 4 s)

end Sys2Proof.Machine
end

