-- ==== Sys2Proof/Machine/Dispatch.lean ====
section
/-! DEFINITION. exec: one arm per command, each a direct call of the command's meaning (40_dispatch.md R90). -/

namespace Sys2Proof.Machine

def exec (i : Instr) (s : State) : Host.Outcome State Fault Refusal :=
  match i with
  | .nop => Sys2Proof.Machine.execNop s
  | .f32tof16_1 => Sys2Proof.Machine.execF32tof16_1 s
  | .f32tof16_2 => Sys2Proof.Machine.execF32tof16_2 s
  | .f32tof16_3 => Sys2Proof.Machine.execF32tof16_3 s
  | .f32tof16_4 => Sys2Proof.Machine.execF32tof16_4 s
  | .f16tof32_1 => Sys2Proof.Machine.execF16tof32_1 s
  | .f16tof32_2 => Sys2Proof.Machine.execF16tof32_2 s
  | .f16tof32_3 => Sys2Proof.Machine.execF16tof32_3 s
  | .f16tof32_4 => Sys2Proof.Machine.execF16tof32_4 s
  | .sincos_1 => Sys2Proof.Machine.execSincos_1 s
  | .sincos_2 => Sys2Proof.Machine.execSincos_2 s
  | .sincos_3 => Sys2Proof.Machine.execSincos_3 s
  | .sincos_4 => Sys2Proof.Machine.execSincos_4 s
  | .hash_2x1 => Sys2Proof.Machine.execHash_2x1 s
  | .hash_3x1 => Sys2Proof.Machine.execHash_3x1 s
  | .hash_4x1 => Sys2Proof.Machine.execHash_4x1 s
  | .hash_2x2 => Sys2Proof.Machine.execHash_2x2 s
  | .hash_3x2 => Sys2Proof.Machine.execHash_3x2 s
  | .hash_4x2 => Sys2Proof.Machine.execHash_4x2 s
  | .hash_2x3 => Sys2Proof.Machine.execHash_2x3 s
  | .hash_3x3 => Sys2Proof.Machine.execHash_3x3 s
  | .hash_4x3 => Sys2Proof.Machine.execHash_4x3 s
  | .hash_2x4 => Sys2Proof.Machine.execHash_2x4 s
  | .hash_3x4 => Sys2Proof.Machine.execHash_3x4 s
  | .hash_4x4 => Sys2Proof.Machine.execHash_4x4 s
  | .hashwide_2x1 => Sys2Proof.Machine.execHashwide_2x1 s
  | .hashwide_3x1 => Sys2Proof.Machine.execHashwide_3x1 s
  | .hashwide_4x1 => Sys2Proof.Machine.execHashwide_4x1 s
  | .hashwide_2x2 => Sys2Proof.Machine.execHashwide_2x2 s
  | .hashwide_3x2 => Sys2Proof.Machine.execHashwide_3x2 s
  | .hashwide_4x2 => Sys2Proof.Machine.execHashwide_4x2 s
  | .hashwide_2x3 => Sys2Proof.Machine.execHashwide_2x3 s
  | .hashwide_3x3 => Sys2Proof.Machine.execHashwide_3x3 s
  | .hashwide_4x3 => Sys2Proof.Machine.execHashwide_4x3 s
  | .hashwide_2x4 => Sys2Proof.Machine.execHashwide_2x4 s
  | .hashwide_3x4 => Sys2Proof.Machine.execHashwide_3x4 s
  | .hashwide_4x4 => Sys2Proof.Machine.execHashwide_4x4 s
  | .seed => Sys2Proof.Machine.execSeed s
  | .nextuint_1 => Sys2Proof.Machine.execNextuint_1 s
  | .nextuint_2 => Sys2Proof.Machine.execNextuint_2 s
  | .nextuint_3 => Sys2Proof.Machine.execNextuint_3 s
  | .nextuint_4 => Sys2Proof.Machine.execNextuint_4 s

end Sys2Proof.Machine
end

