-- ==== Sys2Proof/Machine/Port.lean ====
section
/-! DEFINITION. The host port (20_memory.md): the register map, legal accesses and bus errors, reads, writes, the execution of
a command by a CMD write (40_dispatch.md R90), reset (70_reset_and_hazards.md R230), and how a host address reaches the
window (20_memory.md R51). -/

namespace Sys2Proof.Machine

/-- The registers of the window (20_memory.md R53). -/
inductive WindowReg where
  | a (i : Fin 16)
  | y (i : Fin 8)
  | prngState
  | cmd
  | status
deriving DecidableEq, Repr

/-- The register at a window offset, if the offset is aligned and mapped (20_memory.md R53, R54). -/
def registerAt (offset : BitVec 8) : Option WindowReg :=
  let o := offset.toNat
  if o % 4 ≠ 0 then none
  else if h : o < 0x40 then some (.a ⟨o / 4, by omega⟩)
  else if h : o < 0x60 then some (.y ⟨(o - 0x40) / 4, by omega⟩)
  else if o = 0x60 then some .prngState
  else if o = 0x64 then some .cmd
  else if o = 0x68 then some .status
  else none

/-- The value a legal read of a register returns (20_memory.md R53, R56). -/
def windowRead (r : WindowReg) (s : State) : Word :=
  match r with
  | .a i => readA i s
  | .y i => readY i s
  | .prngState => s.prng
  | .cmd => s.lastcmd
  | .status => statusWord s.err s.cause

/-- What a CMD write of `w` does once LASTCMD is set: the command's meaning, or the illegal-command effect
(40_dispatch.md R90). -/
def runCommandWord (w : Word) (s : State) : Host.Outcome State Fault Refusal :=
  match decode w with
  | .legal i => exec i s
  | .illegal c => .next (raiseIllegalCommand c s)

/-- The effect of a legal-width write of `v` to a register (20_memory.md R53, R57). A write to `Y[i]` or to PRNG_STATE is a
bus error (R55 d, e). -/
def windowWrite (r : WindowReg) (v : Word) (s : State) : Host.Outcome State Fault Refusal :=
  match r with
  | .a i => .next (writeA i v s)
  | .y _ => .fault .busError
  | .prngState => .fault .busError
  | .cmd => runCommandWord v (setLastcmd v s)
  | .status => .next (writeStatus v s)

/-- Give the response once the access has completed (20_memory.md R60). -/
def respondAfter (r : Reply) : Host.Outcome State Fault Refusal → Host.Outcome State Fault Refusal
  | .next s => .next (respond r s)
  | .fault f => .fault f
  | .refused x => .refused x

/-- Perform one host access (20_memory.md R52 to R57): of 4 bytes at a mapped, aligned offset; else a bus error (R55). -/
def performAccess (acc : Access) (s : State) : Host.Outcome State Fault Refusal :=
  if acc.width = .bytes 4 then
    match registerAt acc.offset with
    | none => .fault .busError
    | some r =>
      match acc.op with
      | .read => .next (respond (.readData acc.host (windowRead r s)) s)
      | .write v => respondAfter (.writeDone acc.host) (windowWrite r v s)
  else .fault .busError

/-- Reset (70_reset_and_hazards.md R230): every piece of the block's state to its reset value. The events still to come
and the responses already given are not the block's. -/
def resetBlock (s : State) : State := { State.reset with pending := s.pending, replies := s.replies }

/-- One step of the port: the oldest event is performed; with none the block waits (70_reset_and_hazards.md R231, R238). -/
def portStep (s : State) : Host.Outcome State Fault Refusal :=
  match s.pending with
  | [] => .next s
  | .reset :: rest => .next (resetBlock (setPending rest s))
  | .access acc :: rest => performAccess acc (setPending rest s)

/-- The state from which the block goes on after a bus error: the access is answered with an error response and nothing of
the block has changed (20_memory.md R55, 60_exceptions.md R206; log 5). -/
def answerBusError (s : State) : State :=
  match s.pending with
  | .access acc :: rest => respond (.busError acc.host) (setPending rest s)
  | _ => s

/-- Serve the oldest event whatever it is: the step's next state, or the error response. A run of a host program that meets bus
errors is an iteration of this (70_reset_and_hazards.md R238). -/
def serve (s : State) : State :=
  match portStep s with
  | .next t => t
  | .fault _ => answerBusError s
  | .refused _ => s

/-! The hosts' side: an access at a host address. -/

/-- A host access in the hosts' address space (20_memory.md R51, R52: `MemRead`, `MemWrite`). -/
structure BusRequest where
  host : Nat
  address : Nat
  width : AccessWidth
  op : AccessOp
deriving DecidableEq, Repr

/-- The access that reaches the window, if the address is inside it (20_memory.md R51). -/
def BusRequest.toWindow (q : BusRequest) : Option Access :=
  if Config.blockBase ≤ q.address ∧ q.address < Config.blockBase + 0x100 then
    some { host := q.host, offset := BitVec.ofNat 8 (q.address - Config.blockBase), width := q.width, op := q.op }
  else none

/-- A host access is presented: one in the window waits at the port behind those before it (20_memory.md R64); one outside
never reaches the block (R51, R62). -/
def present (q : BusRequest) (s : State) : State :=
  match q.toWindow with
  | some acc => setPending (s.pending ++ [.access acc]) s
  | none => s

/-- The access that runs the command word `w`: a 4-byte write of it to CMD (30_encoding.md R70). -/
def commandAccess (w : Word) : Access := { host := 0, offset := 0x64, width := .bytes 4, op := .write w }

end Sys2Proof.Machine
end

