-- ==== Sys2Proof/Machine/Step.lean ====
section
/-! DEFINITION. The step function, and where a step fetches its next command: the oldest event of the port. -/

namespace Sys2Proof.Machine

/-- One step: the port performs its oldest event (10_state.md R20, 20_memory.md R64). -/
def step (s : State) : Host.Outcome State Fault Refusal := portStep s

/-- `s` with the command word `w` as the next thing the block runs. The block fetches nothing (10_state.md R21): a command
is the data of a host's CMD write, so this puts that write before every other event (log 11). -/
def State.withFetchWord (s : State) (nbits w : Nat) : State :=
  setPending (.access (commandAccess (BitVec.ofNat 32 (w % 2 ^ nbits))) :: s.pending) s

end Sys2Proof.Machine
end

