-- ==== Sys2Proof/Machine/Assembler.lean ====
section
/-! DEFINITION. Names only, with no effect on the machine: the command mnemonics and pseudo-forms of 30_encoding.md R80
and the host-program syntax of R81, as the accesses they stand for. -/

namespace Sys2Proof.Machine

/-- The mnemonic of a command (30_encoding.md R80). -/
def mnemonic : Instr → String
  | .nop => "NOP"
  | .f32tof16_1 => "F32TOF16.1"
  | .f32tof16_2 => "F32TOF16.2"
  | .f32tof16_3 => "F32TOF16.3"
  | .f32tof16_4 => "F32TOF16.4"
  | .f16tof32_1 => "F16TOF32.1"
  | .f16tof32_2 => "F16TOF32.2"
  | .f16tof32_3 => "F16TOF32.3"
  | .f16tof32_4 => "F16TOF32.4"
  | .sincos_1 => "SINCOS.1"
  | .sincos_2 => "SINCOS.2"
  | .sincos_3 => "SINCOS.3"
  | .sincos_4 => "SINCOS.4"
  | .hash_2x1 => "HASH.2x1"
  | .hash_3x1 => "HASH.3x1"
  | .hash_4x1 => "HASH.4x1"
  | .hash_2x2 => "HASH.2x2"
  | .hash_3x2 => "HASH.3x2"
  | .hash_4x2 => "HASH.4x2"
  | .hash_2x3 => "HASH.2x3"
  | .hash_3x3 => "HASH.3x3"
  | .hash_4x3 => "HASH.4x3"
  | .hash_2x4 => "HASH.2x4"
  | .hash_3x4 => "HASH.3x4"
  | .hash_4x4 => "HASH.4x4"
  | .hashwide_2x1 => "HASHWIDE.2x1"
  | .hashwide_3x1 => "HASHWIDE.3x1"
  | .hashwide_4x1 => "HASHWIDE.4x1"
  | .hashwide_2x2 => "HASHWIDE.2x2"
  | .hashwide_3x2 => "HASHWIDE.3x2"
  | .hashwide_4x2 => "HASHWIDE.4x2"
  | .hashwide_2x3 => "HASHWIDE.2x3"
  | .hashwide_3x3 => "HASHWIDE.3x3"
  | .hashwide_4x3 => "HASHWIDE.4x3"
  | .hashwide_2x4 => "HASHWIDE.2x4"
  | .hashwide_3x4 => "HASHWIDE.3x4"
  | .hashwide_4x4 => "HASHWIDE.4x4"
  | .seed => "SEED"
  | .nextuint_1 => "NEXTUINT.1"
  | .nextuint_2 => "NEXTUINT.2"
  | .nextuint_3 => "NEXTUINT.3"
  | .nextuint_4 => "NEXTUINT.4"

/-- Every command, in the order of the opcode table (30_encoding.md R74). -/
def allCommands : List Instr :=
  [.nop, .f32tof16_1, .f32tof16_2, .f32tof16_3, .f32tof16_4, .f16tof32_1, .f16tof32_2, .f16tof32_3, .f16tof32_4, .sincos_1, .sincos_2, .sincos_3, .sincos_4] ++
  [.hash_2x1, .hash_3x1, .hash_4x1, .hash_2x2, .hash_3x2, .hash_4x2, .hash_2x3, .hash_3x3, .hash_4x3, .hash_2x4, .hash_3x4, .hash_4x4] ++
  [.hashwide_2x1, .hashwide_3x1, .hashwide_4x1, .hashwide_2x2, .hashwide_3x2, .hashwide_4x2, .hashwide_2x3, .hashwide_3x3, .hashwide_4x3, .hashwide_2x4, .hashwide_3x4, .hashwide_4x4] ++
  [.seed, .nextuint_1, .nextuint_2, .nextuint_3, .nextuint_4]

/-- The pseudo-forms (30_encoding.md R80): no suffix is one lane, and `HASH.R`, `HASHWIDE.R` are the vector shapes. -/
def pseudoForms : List (String × Instr) :=
  [("NEXTUINT", .nextuint_1), ("F32TOF16", .f32tof16_1), ("F16TOF32", .f16tof32_1), ("SINCOS", .sincos_1),
   ("HASH.2", .hash_2x1), ("HASH.3", .hash_3x1), ("HASH.4", .hash_4x1),
   ("HASHWIDE.2", .hashwide_2x1), ("HASHWIDE.3", .hashwide_3x1), ("HASHWIDE.4", .hashwide_4x1)]

/-- The word a mnemonic or a pseudo-form assembles to (30_encoding.md R80). -/
def assemble (name : String) : Option Word :=
  (allCommands.map (fun i => (mnemonic i, i)) ++ pseudoForms).lookup name |>.map encode

/-! Host-program syntax (30_encoding.md R81), for a host of any number. -/

/-- A legal-width access: 4 bytes, not a burst. -/
def wordAccess (host : Nat) (offset : BitVec 8) (op : AccessOp) : PortEvent :=
  .access { host := host, offset := offset, width := .bytes 4, op := op }

/-- `wr A<i>, v`. -/
def wrA (host : Nat) (i : Fin 16) (v : Word) : PortEvent :=
  wordAccess host (BitVec.ofNat 8 (4 * i.val)) (.write v)

/-- `wr STATUS, v`. -/
def wrStatus (host : Nat) (v : Word) : PortEvent := wordAccess host 0x68 (.write v)

/-- `cmd w`: any word written to CMD. A command mnemonic standing alone is `cmd` of its encoding. -/
def cmdWrite (host : Nat) (w : Word) : PortEvent := wordAccess host 0x64 (.write w)

/-- `rd A<i>`. -/
def rdA (host : Nat) (i : Fin 16) : PortEvent := wordAccess host (BitVec.ofNat 8 (4 * i.val)) .read

/-- `rd Y<i>`. -/
def rdY (host : Nat) (i : Fin 8) : PortEvent := wordAccess host (BitVec.ofNat 8 (0x40 + 4 * i.val)) .read

/-- `rd PRNG_STATE`. -/
def rdPrngState (host : Nat) : PortEvent := wordAccess host 0x60 .read

/-- `rd CMD`. -/
def rdCmd (host : Nat) : PortEvent := wordAccess host 0x64 .read

/-- `rd STATUS`. -/
def rdStatus (host : Nat) : PortEvent := wordAccess host 0x68 .read

end Sys2Proof.Machine
end

