-- ==== Sys2Proof/Safety.lean ====
section
/-! DEFINITION. What counts as a safe state of the block, in the spec's own terms, what an interleaving of hosts is, and the
hypothesis a claim about SinCos accuracy must name. -/

namespace Sys2Proof.Machine

/-- The generator is never in its fixed point 0 (10_state.md R25). -/
abbrev generatorLive (s : State) : Prop := s.prng ≠ 0

/-- The error record is legal: CAUSE holds a code of 60_exceptions.md R201, and NONE exactly while ERR is 0
(10_state.md R27). -/
abbrev statusLegal (s : State) : Prop := s.cause.toNat ≤ 3 ∧ (s.err = false ↔ s.cause = 0)

/-- The invariant of every reachable state. -/
abbrev soundState (s : State) : Prop := generatorLive s ∧ statusLegal s

/-- The block's own state is the same in both; only the port's surroundings may differ. -/
abbrev sameBlock (s t : State) : Prop :=
  s.a = t.a ∧ s.y = t.y ∧ s.prng = t.prng ∧ s.lastcmd = t.lastcmd ∧ s.err = t.err ∧ s.cause = t.cause

/-- What a command leaves alone whatever it is (40_dispatch.md R92): the operands, LASTCMD, STATUS, and the port. -/
abbrev commandFrame (s t : State) : Prop :=
  t.a = s.a ∧ t.lastcmd = s.lastcmd ∧ t.err = s.err ∧ t.cause = s.cause ∧ t.pending = s.pending ∧ t.replies = s.replies

/-- An access with its host renamed by `f`, and nothing else changed (20_memory.md R50). -/
def renameAccess (f : Nat → Nat) (acc : Access) : Access := { acc with host := f acc.host }

/-- An event with its host renamed. A reset has none. -/
def renameEvent (f : Nat → Nat) : PortEvent → PortEvent
  | .access acc => .access (renameAccess f acc)
  | .reset => .reset

/-- A response with its host renamed. -/
def renameReply (f : Nat → Nat) : Reply → Reply
  | .readData h v => .readData (f h) v
  | .writeDone h => .writeDone (f h)
  | .busError h => .busError (f h)

/-- The same block, with the hosts at its port renamed. -/
def renameHosts (f : Nat → Nat) (s : State) : State :=
  { s with pending := s.pending.map (renameEvent f), replies := s.replies.map (renameReply f) }

/-- The accesses of one host, in the order the port performs them: that host's program order (20_memory.md R64). -/
def accessesOf (h : Nat) : List PortEvent → List Access
  | [] => []
  | .access acc :: l => if acc.host = h then acc :: accessesOf h l else accessesOf h l
  | .reset :: l => accessesOf h l

/-- `l` is an interleaving of the hosts' programs: each host's accesses stand in that host's program order
(20_memory.md R64). The model admits every such `l` as the events of the port (70_reset_and_hazards.md R237). -/
abbrev interleaves (program : Nat → List Access) (l : List PortEvent) : Prop := ∀ h, accessesOf h l = program h

/-! The commands by family, each with its lane count or shape (30_encoding.md R74). -/

/-- F32TOF16.N with its lane count. -/
def f32tof16Forms : List (Instr × Nat) := [(.f32tof16_1, 1), (.f32tof16_2, 2), (.f32tof16_3, 3), (.f32tof16_4, 4)]

/-- F16TOF32.N with its lane count. -/
def f16tof32Forms : List (Instr × Nat) := [(.f16tof32_1, 1), (.f16tof32_2, 2), (.f16tof32_3, 3), (.f16tof32_4, 4)]

/-- SINCOS.N with its lane count. -/
def sincosForms : List (Instr × Nat) := [(.sincos_1, 1), (.sincos_2, 2), (.sincos_3, 3), (.sincos_4, 4)]

/-- NEXTUINT.N with its lane count. -/
def nextuintForms : List (Instr × Nat) := [(.nextuint_1, 1), (.nextuint_2, 2), (.nextuint_3, 3), (.nextuint_4, 4)]

/-- HASH.RxC with its rows and columns. -/
def hashForms : List (Instr × Nat × Nat) :=
  [(.hash_2x1, 2, 1), (.hash_3x1, 3, 1), (.hash_4x1, 4, 1), (.hash_2x2, 2, 2), (.hash_3x2, 3, 2), (.hash_4x2, 4, 2),
   (.hash_2x3, 2, 3), (.hash_3x3, 3, 3), (.hash_4x3, 4, 3), (.hash_2x4, 2, 4), (.hash_3x4, 3, 4), (.hash_4x4, 4, 4)]

/-- HASHWIDE.RxC with its rows and columns. -/
def hashwideForms : List (Instr × Nat × Nat) :=
  [(.hashwide_2x1, 2, 1), (.hashwide_3x1, 3, 1), (.hashwide_4x1, 4, 1),
   (.hashwide_2x2, 2, 2), (.hashwide_3x2, 3, 2), (.hashwide_4x2, 4, 2),
   (.hashwide_2x3, 2, 3), (.hashwide_3x3, 3, 3), (.hashwide_4x3, 4, 3),
   (.hashwide_2x4, 2, 4), (.hashwide_3x4, 3, 4), (.hashwide_4x4, 4, 4)]

/-- The result registers that a command's rule names (10_state.md R23, 40_dispatch.md R92). -/
def namedResults : Instr → List (Fin 8)
  | .nop | .seed => []
  | .f32tof16_1 | .f16tof32_1 | .nextuint_1 => [0]
  | .f32tof16_2 | .f16tof32_2 | .nextuint_2 => [0, 1]
  | .f32tof16_3 | .f16tof32_3 | .nextuint_3 => [0, 1, 2]
  | .f32tof16_4 | .f16tof32_4 | .nextuint_4 => [0, 1, 2, 3]
  | .sincos_1 => [0, 4]
  | .sincos_2 => [0, 1, 4, 5]
  | .sincos_3 => [0, 1, 2, 4, 5, 6]
  | .sincos_4 => [0, 1, 2, 3, 4, 5, 6, 7]
  | .hash_2x1 | .hash_3x1 | .hash_4x1 | .hash_2x2 | .hash_3x2 | .hash_4x2 => [0]
  | .hash_2x3 | .hash_3x3 | .hash_4x3 | .hash_2x4 | .hash_3x4 | .hash_4x4 => [0]
  | .hashwide_2x1 | .hashwide_2x2 | .hashwide_2x3 | .hashwide_2x4 => [0, 1]
  | .hashwide_3x1 | .hashwide_3x2 | .hashwide_3x3 | .hashwide_3x4 => [0, 1, 2]
  | .hashwide_4x1 | .hashwide_4x2 | .hashwide_4x3 | .hashwide_4x4 => [0, 1, 2, 3]

/-- Commands one after another, each a step of its own (10_state.md R21). -/
def execAll : List Instr → State → Host.Outcome State Fault Refusal
  | [], s => .next s
  | i :: l, s =>
    match exec i s with
    | .next t => execAll l t
    | .fault f => .fault f
    | .refused r => .refused r

/-- The magnitude of the half grid at a 15-bit code, in units of 2^-149 (41_half_codec.md R103 case 4): the finite halves
at codes 0 to 0x7BFF, and 2^16 at code 0x7C00. -/
def halfGrid (code : Nat) : Nat :=
  (if code / 1024 = 0 then code % 1024 else (1024 + code % 1024) * 2 ^ (code / 1024 - 1)) * 2 ^ 125

/-- How far a grid point lies from the magnitude of a finite binary32 word, in units of 2^-149. -/
def gridDistance (code : Nat) (a : Word) : Nat := ((halfGrid code : Int) - (mag32 a : Int)).natAbs

/-- The host access `acc` waits first at the port, before `rest`. -/
abbrev atPort (s : State) (acc : Access) (rest : List PortEvent) : Prop := s.pending = .access acc :: rest

/-- The accuracy hypothesis of 42_sincos.md R135, which no statement may assume without naming it. -/
def SincosAccurate : Prop :=
  ∀ x : Word, isFinite32 x = true →
    |((val32 (sincosFn x).1 : Rat) : ℝ) - Real.sin ((val32 x : Rat) : ℝ)| ≤ ((Config.sincosMaxErr : Rat) : ℝ) ∧
    |((val32 (sincosFn x).2 : Rat) : ℝ) - Real.cos ((val32 x : Rat) : ℝ)| ≤ ((Config.sincosMaxErr : Rat) : ℝ)

end Sys2Proof.Machine
end

