-- ==== Sys2Proof/Certificates/Slice0/Obligations.lean ====
section
/-! DEFINITION. The statements for the provers. Each docstring names the rules of spec/ that the statement is about. A
statement at the port (`step`) speaks of `pending` and `replies`, the model's own lists (log 3, log 4). -/

open Sys2Proof Sys2Proof.Machine

/-! ## Encoding -/

/-- Decoding an encoded command gives it back, and a word that decodes to a command is that command's one word
(30_encoding.md R73, R74, R79, R80). -/
def Obligations.DecodeEncodeAgree : Prop :=
  (∀ i : Instr, i.wellFormed = true ∧ decode (encode i) = .legal i) ∧
  ∀ (w : Word) (i : Instr), decode w = .legal i → encode i = w

/-- The legal command words are the 42 of the table (30_encoding.md R74; an inference the spec marks as derived). -/
def Obligations.LegalWordsAreTheTable : Prop :=
  ∀ w : Word, (∃ i, decode w = .legal i) ↔ w.toNat ∈
    [0x00, 0x01, 0x11, 0x21, 0x31, 0x02, 0x12, 0x22, 0x32, 0x03, 0x13, 0x23, 0x33] ++
    [0x14, 0x24, 0x34, 0x54, 0x64, 0x74, 0x94, 0xA4, 0xB4, 0xD4, 0xE4, 0xF4] ++
    [0x15, 0x25, 0x35, 0x55, 0x65, 0x75, 0x95, 0xA5, 0xB5, 0xD5, 0xE5, 0xF5] ++
    [0x06, 0x07, 0x17, 0x27, 0x37]

/-- Which words are illegal and with which cause, RESERVED_OPCODE before RESERVED_FIELD before ILLEGAL_SHAPE
(30_encoding.md R75, R76, R77, 60_exceptions.md R202). The fields are read by arithmetic on the word's number. -/
def Obligations.IllegalWordsByCause : Prop :=
  ∀ (w : Word) (op nf cf rsv : Nat), op = w.toNat % 16 → nf = w.toNat / 16 % 4 → cf = w.toNat / 64 % 4 →
    rsv = w.toNat / 256 →
    (decode w = .illegal .reservedOpcode ↔ 8 ≤ op) ∧
    (decode w = .illegal .reservedField ↔
      op < 8 ∧ (rsv ≠ 0 ∨ (cf ≠ 0 ∧ op ≠ 4 ∧ op ≠ 5) ∨ (nf ≠ 0 ∧ (op = 0 ∨ op = 6)))) ∧
    (decode w = .illegal .illegalShape ↔ rsv = 0 ∧ (op = 4 ∨ op = 5) ∧ nf = 0)

/-- Words written out from the encoding of 30_encoding.md R71 to R74, one or more a family, and illegal words of
95_test_vectors.md section 8. -/
def Obligations.DecodeKnownWords : Prop :=
  decode 0b00000000000000000000000000000000 = .legal .nop ∧
  decode 0b00000000000000000000000000110001 = .legal .f32tof16_4 ∧
  decode 0b00000000000000000000000000010010 = .legal .f16tof32_2 ∧
  decode 0b00000000000000000000000000100011 = .legal .sincos_3 ∧
  decode 0b00000000000000000000000000010100 = .legal .hash_2x1 ∧
  decode 0b00000000000000000000000001110100 = .legal .hash_4x2 ∧
  decode 0b00000000000000000000000011100101 = .legal .hashwide_3x4 ∧
  decode 0b00000000000000000000000000000110 = .legal .seed ∧
  decode 0b00000000000000000000000000110111 = .legal .nextuint_4 ∧
  decode 0x00000108 = .illegal .reservedOpcode ∧
  decode 0x00000104 = .illegal .reservedField ∧
  decode 0x00000004 = .illegal .illegalShape

/-- The counts of a decoded command's operands are its count fields plus one (30_encoding.md R72). -/
def Obligations.OperandCountsFollowFields : Prop :=
  ∀ (w : Word) (i : Instr), decode w = .legal i →
    (∀ n, i.operands = .lanes n → n = w.toNat / 16 % 4 + 1) ∧
    (∀ r c, i.operands = .matrix r c → r = w.toNat / 16 % 4 + 1 ∧ c = w.toNat / 64 % 4 + 1) ∧
    (i.operands = .nullary → w.toNat < 8)

/-! ## Running a command -/

/-- A CMD write of a legal word is one step: the access leaves the port, LASTCMD takes the word, the command's own meaning runs, and
the host is told that its write has completed (40_dispatch.md R90, 20_memory.md R60). The block has no pc to move past a word. -/
def Obligations.StepRunsDecodedCommand : Prop :=
  ∀ (s : State) (host : Nat) (w : Word) (rest : List PortEvent) (i : Instr),
    s.pending = cmdWrite host w :: rest → decode w = .legal i →
    step s = respondAfter (.writeDone host) (exec i { s with lastcmd := w, pending := rest })

/-- Every command completes, and leaves alone the operands, LASTCMD, STATUS, the port, every result register that its rule
does not name, and S unless it is SEED or NEXTUINT (40_dispatch.md R92). -/
def Obligations.LegalCommandFrame : Prop :=
  ∀ (i : Instr) (s : State), ∃ t, exec i s = .next t ∧ commandFrame s t ∧
    (∀ j, j ∉ namedResults i → readY j t = readY j s) ∧
    (i ≠ .seed → (∀ n, (i, n) ∉ nextuintForms) → t.prng = s.prng)

/-- An illegal word written to CMD: LASTCMD holds it, ERR and CAUSE record it if ERR was 0 and are unchanged otherwise, and
nothing else changes (60_exceptions.md R203, codes of R201). -/
def Obligations.IllegalCommandEffect : Prop :=
  ∀ (s : State) (host : Nat) (w : Word) (rest : List PortEvent) (c : IllegalCause),
    s.pending = cmdWrite host w :: rest → decode w = .illegal c →
    ∃ t, step s = .next t ∧ t.lastcmd = w ∧ t.a = s.a ∧ t.y = s.y ∧ t.prng = s.prng ∧ t.err = true ∧
      (s.err = false → t.cause.toNat = match c with | .reservedOpcode => 1 | .reservedField => 2 | .illegalShape => 3) ∧
      (s.err = true → t.cause = s.cause) ∧ t.pending = rest ∧ t.replies = .writeDone host :: s.replies

/-- Once ERR is 1, no command, legal or illegal, and no other access changes the record, until a STATUS write with bit 0 set or a
reset (60_exceptions.md R204, R205, 40_dispatch.md R92). -/
def Obligations.ErrorRecordIsSticky : Prop :=
  ∀ (k : Nat) (s t : State), s.err = true →
    (∀ e ∈ s.pending, e ≠ .reset ∧
      ∀ (acc : Access) (v : Word), e = .access acc → acc.offset = 0x68 → acc.op = .write v → v.toNat % 2 = 0) →
    Host.Core.run Sys2Proof.core k s = .next t → t.err = true ∧ t.cause = s.cause

/-- LASTCMD takes every word written to CMD, legal or not, before the word runs; a read of CMD returns it with no side effect; no
command reads it (10_state.md R26). -/
def Obligations.LastcmdIsOnlyARecord : Prop :=
  (∀ (s : State) (host : Nat) (w : Word) (rest : List PortEvent), s.pending = cmdWrite host w :: rest →
    ∃ t, step s = .next t ∧ t.lastcmd = w ∧
      respondAfter (.writeDone host) (runCommandWord w { s with lastcmd := w, pending := rest }) = .next t) ∧
  (∀ (s : State) (host : Nat) (rest : List PortEvent), s.pending = rdCmd host :: rest →
    step s = .next { s with pending := rest, replies := .readData host s.lastcmd :: s.replies }) ∧
  ∀ (i : Instr) (s t : State) (w : Word), exec i s = .next t →
    exec i { s with lastcmd := w } = .next { t with lastcmd := w }

/-- NOP: the only word is 0, the command has no effect, and its step changes only LASTCMD (40_dispatch.md R94). -/
def Obligations.NopChangesOnlyLastcmd : Prop :=
  (∀ w : Word, decode w = .legal .nop ↔ w = 0) ∧
  (∀ s : State, exec .nop s = .next s) ∧
  ∀ (s : State) (host : Nat) (rest : List PortEvent), s.pending = cmdWrite host 0 :: rest →
    step s = .next { s with lastcmd := 0, pending := rest, replies := .writeDone host :: s.replies }

/-! ## Invariants and reset -/

/-- Every step, from any state, keeps the invariant: S is not 0, CAUSE is a legal code, and it is NONE exactly while ERR is 0
(10_state.md R25, R27, 60_exceptions.md R201). -/
def Obligations.StepKeepsSoundState : Prop :=
  ∀ s t : State, soundState s → step s = .next t → soundState t

/-- The state after reset meets the invariant (10_state.md R25, R32). -/
def Obligations.ResetIsSound : Prop := soundState State.reset

/-- Reset leaves every register at the value of 10_state.md R32, at power-on and as an event of the port
(70_reset_and_hazards.md R230). -/
def Obligations.ResetSetsEveryRegister : Prop :=
  (∀ i, readA i State.reset = 0) ∧ (∀ j, readY j State.reset = 0) ∧ State.reset.prng = 0x9E3779B9 ∧
  State.reset.lastcmd = 0 ∧ State.reset.err = false ∧ State.reset.cause = 0 ∧
  ∀ (s : State) (rest : List PortEvent), s.pending = .reset :: rest →
    ∃ t, step s = .next t ∧ sameBlock t State.reset ∧ t.pending = rest ∧ t.replies = s.replies

/-- With nothing at the port the block waits and never starts a step by itself (10_state.md R20,
70_reset_and_hazards.md R231). -/
def Obligations.IdleBlockWaits : Prop :=
  ∀ s : State, s.pending = [] → ∀ k, Host.Core.run Sys2Proof.core k s = .next s

/-! ## Half codec -/

/-- F32TOF16.1 to .4 (41_half_codec.md R110): lane by lane the narrowed half in bits 15:0, upper bits 0, and nothing else. -/
def Obligations.F32tof16Result : Prop :=
  f2h .flushBelowMinSubnormal 0x3F800000 = 0x3C00 ∧
  ∀ (i : Instr) (n : Nat), (i, n) ∈ f32tof16Forms → ∀ s : State,
    decode (BitVec.ofNat 32 (16 * (n - 1) + 1)) = .legal i ∧
    ∃ t, exec i s = .next t ∧
      (∀ j : Fin 4, readY (lowY j) t =
        if j.val < n then (f2h .flushBelowMinSubnormal (readA (laneA j) s)).setWidth 32 else readY (lowY j) s) ∧
      (∀ j : Fin 4, readY (highY j) t = readY (highY j) s) ∧ t.prng = s.prng ∧ commandFrame s t

/-- NaN narrowing: the input's sign, and the quiet NaN 0x7E00 (41_half_codec.md R106). -/
def Obligations.NarrowNaN : Prop :=
  ∀ (mode : HalfUnderflow) (a : Word), isNaN32 a = true →
    (f2h mode a).toNat = (a.toNat / 2 ^ 31) * 2 ^ 15 + 0x7E00 ∧ isQuiet16 (f2h mode a) = true

/-- `f2h` as the rules define it: NaN and infinity by class; below 2^-24 the zero of the sign; otherwise the nearest point
of the half grid, ties to the even code (41_half_codec.md R103, R104). Distances are exact. -/
def Obligations.NarrowRoundsToNearestEven : Prop :=
  ∀ (a : Word) (s code : Nat), s = a.toNat / 2 ^ 31 →
    (f2h .flushBelowMinSubnormal a).toNat = s * 2 ^ 15 + code → code < 2 ^ 15 →
    (isNaN32 a = true → code = 0x7E00) ∧
    (isInf32 a = true → code = 0x7C00) ∧
    (isFinite32 a = true → mag32 a < 2 ^ 125 → code = 0) ∧
    (isFinite32 a = true → 2 ^ 125 ≤ mag32 a → code ≤ 0x7C00 ∧
      ∀ c, c ≤ 0x7C00 → gridDistance code a ≤ gridDistance c a ∧
        (gridDistance c a = gridDistance code a → c ≠ code → code % 2 = 0))

/-- Every input narrows to a half of its sign, so the decomposition of the statement above exists
(41_half_codec.md R109; an inference the spec marks as derived). -/
def Obligations.NarrowKeepsSign : Prop :=
  ∀ (mode : HalfUnderflow) (a : Word), sign16 (f2h mode a) = sign32 a ∧
    (f2h mode a).toNat / 2 ^ 15 = a.toNat / 2 ^ 31

/-- Overflow: infinity exactly from 65520 on; between 65504 and 65520 the largest finite half (41_half_codec.md R107; an
inference the spec marks as derived). -/
def Obligations.NarrowOverflowThreshold : Prop :=
  ∀ (mode : HalfUnderflow) (a : Word),
    (isInf16 (f2h mode a) = true ↔ isInf32 a = true ∨ (isFinite32 a = true ∧ 65520 * 2 ^ 149 ≤ mag32 a)) ∧
    (isFinite32 a = true → 65504 * 2 ^ 149 < mag32 a → mag32 a < 65520 * 2 ^ 149 →
      (f2h mode a).toNat % 2 ^ 15 = 0x7BFF)

/-- The two underflow modes differ exactly on the band between 2^-25 and 2^-24 (41_half_codec.md R105, 90_conflicts.md C4). -/
def Obligations.UnderflowModesDifferOnBand : Prop :=
  ∀ a : Word, f2h .flushBelowMinSubnormal a ≠ f2h .gradualRne a ↔
    isFinite32 a = true ∧ 2 ^ 124 < mag32 a ∧ mag32 a < 2 ^ 125

/-- F16TOF32.1 to .4 (41_half_codec.md R120): lane by lane the widened low half, upper bits ignored, and nothing else. -/
def Obligations.F16tof32Result : Prop :=
  (∀ (i : Instr) (n : Nat), (i, n) ∈ f16tof32Forms → ∀ s : State,
    decode (BitVec.ofNat 32 (16 * (n - 1) + 2)) = .legal i ∧
    ∃ t, exec i s = .next t ∧
      (∀ j : Fin 4, readY (lowY j) t =
        if j.val < n then h2f (BitVec.ofNat 16 ((readA (laneA j) s).toNat % 2 ^ 16)) else readY (lowY j) s) ∧
      (∀ j : Fin 4, readY (highY j) t = readY (highY j) s) ∧ t.prng = s.prng ∧ commandFrame s t) ∧
  h2f 0x0000 = 0x00000000 ∧ h2f 0x8000 = 0x80000000 ∧ h2f 0x0001 = 0x33800000 ∧ h2f 0x03FF = 0x387FC000 ∧
  h2f 0x7BFF = 0x477FE000 ∧ h2f 0x7C00 = 0x7F800000 ∧ h2f 0xFC00 = 0xFF800000 ∧ h2f 0x7E00 = 0x7FC00000 ∧
  h2f 0x7C01 = 0x7F802000 ∧ h2f 0x3C00 = 0x3F800000

/-- Widening is exact: the same value and sign for every finite half, the same infinity, and a half subnormal becomes a
binary32 normal (41_half_codec.md R112). -/
def Obligations.WidenIsExact : Prop :=
  ∀ h : Half,
    (isFinite16 h = true → isFinite32 (h2f h) = true ∧ val32 (h2f h) = val16 h ∧ sign32 (h2f h) = sign16 h) ∧
    (isInf16 h = true → isInf32 (h2f h) = true ∧ sign32 (h2f h) = sign16 h) ∧
    (exp16 h = 0 → frac16 h ≠ 0 → exp32 (h2f h) ≠ 0)

/-- NaN widening keeps the sign and the payload, and so keeps quiet and signalling apart (41_half_codec.md R113; the last part is
an inference the spec marks as derived). -/
def Obligations.WidenKeepsNaNPayload : Prop :=
  ∀ h : Half, isNaN16 h = true →
    (h2f h).toNat = (h.toNat / 2 ^ 15) * 2 ^ 31 + 0x7F800000 + (h.toNat % 1024) * 2 ^ 13 ∧
    isNaN32 (h2f h) = true ∧ isQuiet32 (h2f h) = isQuiet16 h

/-- Half to binary32 and back: the same half unless it is a NaN, and then the quiet NaN of its sign, in both underflow modes
(41_half_codec.md R121; an inference the spec marks as derived). -/
def Obligations.HalfRoundTrip : Prop :=
  ∀ (mode : HalfUnderflow) (h : Half),
    (isNaN16 h = false → f2h mode (h2f h) = h) ∧
    (isNaN16 h = true → (f2h mode (h2f h)).toNat = (h.toNat / 2 ^ 15) * 2 ^ 15 + 0x7E00)

/-- Binary32 to half and back: every NaN becomes the quiet NaN of its sign; a finite word below the overflow threshold becomes a
finite word of its sign whose magnitude is a point of the half grid, the nearest one from 2^-24 on
(41_half_codec.md R123; an inference the spec marks as derived). -/
def Obligations.FloatRoundTrip : Prop :=
  ∀ a : Word,
    (isNaN32 a = true → ∀ mode, (h2f (f2h mode a)).toNat = (a.toNat / 2 ^ 31) * 2 ^ 31 + 0x7FC00000) ∧
    (isFinite32 a = true → mag32 a < 65520 * 2 ^ 149 →
      ∃ b, b = h2f (f2h .flushBelowMinSubnormal a) ∧ isFinite32 b = true ∧ sign32 b = sign32 a ∧
        (mag32 a < 2 ^ 125 → mag32 b = 0) ∧
        (2 ^ 125 ≤ mag32 a → ∃ code, code < 0x7C00 ∧ mag32 b = halfGrid code ∧
          ∀ c, c ≤ 0x7C00 → gridDistance code a ≤ gridDistance c a))

/-! ## SinCos -/

/-- SINCOS.1 to .4 (42_sincos.md R136): each lane's sine in `Y[i]` and cosine in `Y[4+i]`, both from one evaluation of
`SINCOS_FN` on that lane, and nothing else. -/
def Obligations.SincosResult : Prop :=
  ∀ (i : Instr) (n : Nat), (i, n) ∈ sincosForms → ∀ s : State,
    decode (BitVec.ofNat 32 (16 * (n - 1) + 3)) = .legal i ∧
    ∃ t, exec i s = .next t ∧
      (∀ j : Fin 4, readY (lowY j) t = (if j.val < n then (sincosFn (readA (laneA j) s)).1 else readY (lowY j) s) ∧
        readY (highY j) t = (if j.val < n then (sincosFn (readA (laneA j) s)).2 else readY (highY j) s)) ∧
      t.prng = s.prng ∧ commandFrame s t

/-- Non-finite inputs give 0x7FC00000 twice, whatever the sign and payload (42_sincos.md R133). -/
def Obligations.SincosOfNonFinite : Prop :=
  ∀ x : Word, isNaN32 x = true ∨ isInf32 x = true → sincosFn x = (0x7FC00000, 0x7FC00000)

/-- The identity bound on every finite input, in exact arithmetic on the values (42_sincos.md R131). It holds for every
`SINCOS_FN` that the open constant may stand for (log 1). -/
def Obligations.SincosIdentityBound : Prop :=
  ∀ x : Word, isFinite32 x = true →
    |val32 (sincosFn x).1 ^ 2 + val32 (sincosFn x).2 ^ 2 - 1| ≤ 1 / 10 ^ 6

/-- Finite inputs give finite results of magnitude at most 1.0000005 (42_sincos.md R134; an inference the spec marks as derived). -/
def Obligations.SincosIsBounded : Prop :=
  ∀ x : Word, isFinite32 x = true →
    isFinite32 (sincosFn x).1 = true ∧ isFinite32 (sincosFn x).2 = true ∧
    |val32 (sincosFn x).1| ≤ 10000005 / 10 ^ 7 ∧ |val32 (sincosFn x).2| ≤ 10000005 / 10 ^ 7

/-- Lane independence: in each componentwise family, lanes that hold the same word give the same results, in every lane, command form
and state (40_dispatch.md R93; an inference the spec marks as derived). -/
def Obligations.LanesAreIndependent : Prop :=
  ∀ forms ∈ [f32tof16Forms, f16tof32Forms, sincosForms],
  ∀ (i i' : Instr) (n n' : Nat), (i, n) ∈ forms → (i', n') ∈ forms →
  ∀ (s s' t t' : State) (j j' : Fin 4), j.val < n → j'.val < n' → readA (laneA j) s = readA (laneA j') s' →
    exec i s = .next t → exec i' s' = .next t' →
    readY (lowY j) t = readY (lowY j') t' ∧ (forms = sincosForms → readY (highY j) t = readY (highY j') t')

/-! ## Hash mixer -/

/-- The tables meet their constraints, whatever the open constants are: every `HASH_K` and `WIDE_K` entry of a shape odd, the
entries of one table pairwise distinct, every `HASH_C` odd (43_hash.md R152; log 2). -/
def Obligations.HashTablesMeetConstraints : Prop :=
  ∀ rows cols : Nat, 2 ≤ rows → rows ≤ 4 → 1 ≤ cols → cols ≤ 4 →
    (hashC rows cols).toNat % 2 = 1 ∧
    ∀ K ∈ [hashK rows cols, wideK rows cols], ∀ c r : Fin 4, c.val < cols → r.val < rows →
      (K c r).toNat % 2 = 1 ∧
      ∀ c' r' : Fin 4, c'.val < cols → r'.val < rows → K c r = K c' r' → c = c' ∧ r = r'

/-- HASH of the twelve shapes: `Y[0]` is the sum of the products over the shape plus the final constant, modulo 2^32, and
nothing else changes (43_hash.md R154, R155). The sum is taken over exact integers. -/
def Obligations.HashResult : Prop :=
  ∀ (i : Instr) (rows cols : Nat), (i, rows, cols) ∈ hashForms → ∀ s : State,
    decode (BitVec.ofNat 32 (64 * (cols - 1) + 16 * (rows - 1) + 4)) = .legal i ∧
    ∃ t, exec i s = .next t ∧
      (readY 0 t).toNat =
        ((∑ c : Fin 4, ∑ r : Fin 4, if c.val < cols ∧ r.val < rows
          then (readA (elementA r c) s).toNat * (hashK rows cols c r).toNat else 0) + (hashC rows cols).toNat) % 2 ^ 32 ∧
      (∀ j : Fin 8, j ≠ 0 → readY j t = readY j s) ∧ t.prng = s.prng ∧ commandFrame s t

/-- HASHWIDE of the twelve shapes: `Y[r]` is the sum over the columns of row `r`'s products plus that row's constant, modulo
2^32, and nothing else changes (43_hash.md R156, R157). -/
def Obligations.HashwideResult : Prop :=
  ∀ (i : Instr) (rows cols : Nat), (i, rows, cols) ∈ hashwideForms → ∀ s : State,
    decode (BitVec.ofNat 32 (64 * (cols - 1) + 16 * (rows - 1) + 5)) = .legal i ∧
    ∃ t, exec i s = .next t ∧
      (∀ r : Fin 4, r.val < rows → (readY (lowY r) t).toNat =
        ((∑ c : Fin 4, if c.val < cols
          then (readA (elementA r c) s).toNat * (wideK rows cols c r).toNat else 0) +
          (Config.wideC rows cols r).toNat) % 2 ^ 32) ∧
      (∀ r : Fin 4, rows ≤ r.val → readY (lowY r) t = readY (lowY r) s) ∧
      (∀ r : Fin 4, readY (highY r) t = readY (highY r) s) ∧ t.prng = s.prng ∧ commandFrame s t

/-- Flipping one bit of one operand element changes the narrow hash by the element's constant times that power of 2, and so always
changes it (43_hash.md R161; an inference the spec marks as derived). -/
def Obligations.HashSeesEveryBit : Prop :=
  ∀ (i : Instr) (rows cols : Nat), (i, rows, cols) ∈ hashForms →
  ∀ (s t t' : State) (c r : Fin 4) (b : Nat), c.val < cols → r.val < rows → b < 32 →
    exec i s = .next t →
    exec i (writeA (elementA r c) (readA (elementA r c) s ^^^ BitVec.twoPow 32 b) s) = .next t' →
    readY 0 t' ≠ readY 0 t ∧
    ((readA (elementA r c) s).getLsbD b = false →
      readY 0 t' = readY 0 t + hashK rows cols c r * BitVec.twoPow 32 b) ∧
    ((readA (elementA r c) s).getLsbD b = true →
      readY 0 t' = readY 0 t - hashK rows cols c r * BitVec.twoPow 32 b)

/-- The same of the wide hash, in the lane of the element's row; the other lanes do not change
(43_hash.md R157, R161; an inference the spec marks as derived). -/
def Obligations.HashwideSeesEveryBit : Prop :=
  ∀ (i : Instr) (rows cols : Nat), (i, rows, cols) ∈ hashwideForms →
  ∀ (s t t' : State) (c r : Fin 4) (b : Nat), c.val < cols → r.val < rows → b < 32 →
    exec i s = .next t →
    exec i (writeA (elementA r c) (readA (elementA r c) s ^^^ BitVec.twoPow 32 b) s) = .next t' →
    readY (lowY r) t' ≠ readY (lowY r) t ∧ ∀ j, j ≠ lowY r → readY j t' = readY j t

/-- Low bits of both hashes depend on low bits of the shape's elements only; with `k = 32`, registers outside the shape are not
read (43_hash.md R151, R160, R162; an inference the spec marks as derived). -/
def Obligations.HashLowBitsDependOnLowBits : Prop :=
  ∀ (i : Instr) (rows cols : Nat), (i, rows, cols) ∈ hashForms ∨ (i, rows, cols) ∈ hashwideForms →
  ∀ (k : Nat) (s s' t t' : State), k ≤ 32 →
    (∀ c r : Fin 4, c.val < cols → r.val < rows →
      (readA (elementA r c) s).toNat % 2 ^ k = (readA (elementA r c) s').toNat % 2 ^ k) →
    exec i s = .next t → exec i s' = .next t' →
    ∀ j ∈ namedResults i, (readY j t).toNat % 2 ^ k = (readY j t').toNat % 2 ^ k

/-! ## Generator -/

/-- SEED: S takes `A[0]`, or 0x9E3779B9 where `A[0]` is 0, and nothing else changes; the only word is 6 (44_prng.md R175). -/
def Obligations.SeedLoadsState : Prop :=
  (∀ w : Word, decode w = .legal .seed ↔ w = 6) ∧
  ∀ s : State, exec .seed s = .next { s with prng := if readA 0 s = 0 then 0x9E3779B9 else readA 0 s }

/-- NEXTUINT.1 to .4 (44_prng.md R174, R177): lane `i` holds the state after `i + 1` updates, S is the last of them and so equals
the last value drawn, and nothing else changes. -/
def Obligations.NextuintResult : Prop :=
  ∀ (i : Instr) (n : Nat), (i, n) ∈ nextuintForms → ∀ s : State,
    decode (BitVec.ofNat 32 (16 * (n - 1) + 7)) = .legal i ∧
    ∃ t, exec i s = .next t ∧ t.prng = xorshift32^[n] s.prng ∧
      (∀ j : Fin 8, readY j t = if j.val < n then xorshift32^[j.val + 1] s.prng else readY j s) ∧
      (∀ j : Fin 4, j.val + 1 = n → readY (lowY j) t = t.prng) ∧ commandFrame s t

/-- The update is the three shift-xor steps, it has the inverse that the spec writes out, and it fixes 0 and so never reaches it
(44_prng.md R171, R172; in part an inference the spec marks as derived). -/
def Obligations.UpdateIsInvertible : Prop :=
  (∀ x : Word, xorshift32 x =
    ((x ^^^ (x <<< 13)) ^^^ ((x ^^^ (x <<< 13)) >>> 17)) ^^^ (((x ^^^ (x <<< 13)) ^^^ ((x ^^^ (x <<< 13)) >>> 17)) <<< 5)) ∧
  (∀ x : Word, xorshift32Inv (xorshift32 x) = x) ∧ (∀ x : Word, xorshift32 (xorshift32Inv x) = x) ∧
  xorshift32 0 = 0 ∧ ∀ x : Word, x ≠ 0 → xorshift32 x ≠ 0

/-- From every state but 0 the draws return after exactly 2^32 - 1 updates and on the way reach every word but 0
(44_prng.md R173; from general knowledge and by the spec's own computation). -/
def Obligations.GeneratorHasFullPeriod : Prop :=
  (∀ (x : Word) (n : Nat), x ≠ 0 → (xorshift32^[n] x = x ↔ (2 ^ 32 - 1) ∣ n)) ∧
  ∀ x y : Word, x ≠ 0 → y ≠ 0 → ∃ n, n < 2 ^ 32 - 1 ∧ xorshift32^[n] x = y

/-- In every state that meets the invariant, no lane drawn is 0, each lane is the update of the lane before it and differs from it,
and the first lane differs from the state before (44_prng.md R173, R177; an inference the spec marks as derived). -/
def Obligations.DrawsAreNeverZeroOrRepeated : Prop :=
  ∀ (i : Instr) (n : Nat), (i, n) ∈ nextuintForms → ∀ s t : State, soundState s → exec i s = .next t →
    readY 0 t ≠ s.prng ∧ (∀ j : Fin 4, j.val < n → readY (lowY j) t ≠ 0) ∧
    ∀ j j' : Fin 4, j'.val = j.val + 1 → j'.val < n →
      readY (lowY j') t = xorshift32 (readY (lowY j) t) ∧ readY (lowY j') t ≠ readY (lowY j) t

/-- A vector draw equals as many scalar draws: the same lanes and the same S (44_prng.md R178; an inference the spec marks as derived). -/
def Obligations.VectorDrawEqualsScalarDraws : Prop :=
  ∀ (i : Instr) (n : Nat), (i, n) ∈ nextuintForms → ∀ (s t : State) (u : Nat → State), u 0 = s →
    (∀ k, k < n → exec .nextuint_1 (u k) = .next (u (k + 1))) → exec i s = .next t →
    t.prng = (u n).prng ∧ ∀ j : Fin 4, j.val < n → readY (lowY j) t = readY 0 (u (j.val + 1))

/-- The pinned draws after SEED with 1 (44_prng.md R180; computed by the spec). -/
def Obligations.PinnedDraws : Prop :=
  ∃ t1 t2 t3, exec .seed (writeA 0 1 State.reset) = .next t1 ∧ t1.prng = 1 ∧
    exec .nextuint_4 t1 = .next t2 ∧ exec .nextuint_4 t2 = .next t3 ∧
    [readY 0 t2, readY 1 t2, readY 2 t2, readY 3 t2, readY 0 t3, readY 1 t3, readY 2 t3, readY 3 t3] =
      [0x00042021, 0x04080601, 0x9DCCA8C5, 0x1255994F, 0x8EF917D1, 0x2C6F5BD0, 0x25B2331A, 0x19F91CB2]

/-- Reproducibility: two blocks in any states, given the same seed and the same draw commands, end with the same S and the same value
in every lane drawn (44_prng.md R179; an inference the spec marks as derived). -/
def Obligations.SeededDrawsAreReproducible : Prop :=
  ∀ (l : List Instr) (s s' t t' : State), (∀ i ∈ l, ∃ n, (i, n) ∈ nextuintForms) → readA 0 s = readA 0 s' →
    execAll (.seed :: l) s = .next t → execAll (.seed :: l) s' = .next t' →
    t.prng = t'.prng ∧ ∀ j, (∃ i ∈ l, j ∈ namedResults i) → readY j t = readY j t'

/-! ## The port -/

/-- Legal reads: each register's value goes to the host, and nothing of the block changes; STATUS reads ERR in bit 0, CAUSE in bits
7:4 and zeros elsewhere (20_memory.md R53, R56). -/
def Obligations.ReadsReturnRegisters : Prop :=
  ∀ (s : State) (host : Nat) (rest : List PortEvent) (offset : BitVec 8) (v : Word),
    s.pending = wordAccess host offset .read :: rest →
    ((∃ i : Fin 16, offset.toNat = 4 * i.val ∧ v = readA i s) ∨ (∃ j : Fin 8, offset.toNat = 0x40 + 4 * j.val ∧ v = readY j s) ∨
     (offset.toNat = 0x60 ∧ v = s.prng) ∨ (offset.toNat = 0x64 ∧ v = s.lastcmd) ∨
     (offset.toNat = 0x68 ∧ v.toNat = 16 * s.cause.toNat + s.err.toNat)) →
    step s = .next { s with pending := rest, replies := .readData host v :: s.replies }

/-- Legal writes: to `A[i]`, that register and nothing else; to STATUS, bit 0 clears ERR and CAUSE, and otherwise nothing changes; to
CMD, LASTCMD and then the command or the illegal-command effect (20_memory.md R57). -/
def Obligations.WritesSetRegisters : Prop :=
  ∀ (s : State) (host : Nat) (rest : List PortEvent) (v : Word),
    (∀ i : Fin 16, s.pending = wrA host i v :: rest →
      ∃ t, step s = .next t ∧ (∀ j, readA j t = if j = i then v else readA j s) ∧
        t = { s with a := t.a, pending := rest, replies := .writeDone host :: s.replies }) ∧
    (s.pending = wrStatus host v :: rest →
      (v.toNat % 2 = 1 →
        step s = .next { s with err := false, cause := 0, pending := rest, replies := .writeDone host :: s.replies }) ∧
      (v.toNat % 2 = 0 → step s = .next { s with pending := rest, replies := .writeDone host :: s.replies })) ∧
    (s.pending = cmdWrite host v :: rest →
      step s = respondAfter (.writeDone host) (runCommandWord v { s with lastcmd := v, pending := rest }))

/-- A host access is a bus error exactly under the five conditions (a) to (e) of 20_memory.md R55. The second part is about
`answerBusError`, the model's choice of the state to go on from after the fault (DESIGN CHOICE, log 5): for every access it answers the
host without data and leaves everything else as before. -/
def Obligations.BusErrorConditions : Prop :=
  ∀ (s : State) (acc : Access) (rest : List PortEvent), atPort s acc rest →
    (step s = .fault .busError ↔
      acc.width ≠ .bytes 4 ∨ acc.offset.toNat % 4 ≠ 0 ∨ 0x6C ≤ acc.offset.toNat ∨
      (acc.op ≠ .read ∧ 0x40 ≤ acc.offset.toNat ∧ acc.offset.toNat ≤ 0x5C) ∨
      (acc.op ≠ .read ∧ acc.offset.toNat = 0x60)) ∧
    answerBusError s = { s with pending := rest, replies := .busError acc.host :: s.replies }

/-- Nothing but a bus error stops the machine: every other step goes on, and no step is refused
(60_exceptions.md R200, 40_dispatch.md R92). -/
def Obligations.OnlyBusErrorsStop : Prop :=
  ∀ s : State, (∃ t, step s = .next t) ∨
    (step s = .fault .busError ∧ ∃ acc rest, atPort s acc rest ∧ serve s = answerBusError s)

/-- A run performs the port's events one at a time in their order, and for every interleaving of hosts' programs each host's accesses
are performed in that host's program order (20_memory.md R64, 70_reset_and_hazards.md R235, R237). -/
def Obligations.PortKeepsOrder : Prop :=
  ∀ (k : Nat) (s t : State), Host.Core.run Sys2Proof.core k s = .next t →
    t.pending = s.pending.drop k ∧ (∃ l, t.replies = l ++ s.replies ∧ l.length ≤ k) ∧
    ∀ program : Nat → List Access, interleaves program s.pending →
      ∀ h, program h = accessesOf h (s.pending.take k) ++ accessesOf h t.pending

/-- The block cannot tell hosts apart: a run with the hosts renamed is the run, with the responses going to the renamed hosts
(20_memory.md R50, 60_exceptions.md R210). -/
def Obligations.HostsAreIndistinguishable : Prop :=
  ∀ (f : Nat → Nat) (k : Nat) (s : State),
    (∀ t, Host.Core.run Sys2Proof.core k s = .next t →
      Host.Core.run Sys2Proof.core k (renameHosts f s) = .next (renameHosts f t)) ∧
    (Host.Core.run Sys2Proof.core k s = .fault .busError →
      Host.Core.run Sys2Proof.core k (renameHosts f s) = .fault .busError)

/-- A host address in the window reaches the port at its offset from BLOCK_BASE, a multiple of 0x100, behind what waits there;
another address never does (20_memory.md R51). -/
def Obligations.WindowSitsAtBlockBase : Prop :=
  Config.blockBase % 0x100 = 0 ∧
  ∀ (q : BusRequest) (s : State),
    (∀ offset : BitVec 8, q.address = Config.blockBase + offset.toNat →
      present q s = { s with pending := s.pending ++
        [.access { host := q.host, offset := offset, width := q.width, op := q.op }] }) ∧
    (q.address < Config.blockBase ∨ Config.blockBase + 0x100 ≤ q.address → present q s = s)

/-- Bit reinterpretation is the identity: a word written to `A[i]` reads back with every bit as written, for every word
(40_dispatch.md R95). -/
def Obligations.ReinterpretationIsIdentity : Prop :=
  ∀ (s : State) (h h' : Nat) (i : Fin 16) (v : Word) (rest : List PortEvent),
    s.pending = wrA h i v :: rdA h' i :: rest →
    ∃ t, Host.Core.run Sys2Proof.core 2 s = .next t ∧
      t = { s with a := t.a, pending := rest, replies := .readData h' v :: .writeDone h :: s.replies } ∧
      ∀ j, readA j t = if j = i then v else readA j s
end

