-- ==== Sys2Proof/Laws/State.lean ====
section
/-! SUPPORT. One lemma per field per update of the state, each true by rfl. -/

namespace Sys2Proof.Machine

@[simp] theorem writeA_a (i : Fin 16) (v : Word) (s : State) : (writeA i v s).a = s.a.set i v := rfl
@[simp] theorem writeA_y (i : Fin 16) (v : Word) (s : State) : (writeA i v s).y = s.y := rfl
@[simp] theorem writeA_prng (i : Fin 16) (v : Word) (s : State) : (writeA i v s).prng = s.prng := rfl
@[simp] theorem writeA_lastcmd (i : Fin 16) (v : Word) (s : State) : (writeA i v s).lastcmd = s.lastcmd := rfl
@[simp] theorem writeA_err (i : Fin 16) (v : Word) (s : State) : (writeA i v s).err = s.err := rfl
@[simp] theorem writeA_cause (i : Fin 16) (v : Word) (s : State) : (writeA i v s).cause = s.cause := rfl
@[simp] theorem writeA_pending (i : Fin 16) (v : Word) (s : State) : (writeA i v s).pending = s.pending := rfl
@[simp] theorem writeA_replies (i : Fin 16) (v : Word) (s : State) : (writeA i v s).replies = s.replies := rfl

@[simp] theorem writeY_a (i : Fin 8) (v : Word) (s : State) : (writeY i v s).a = s.a := rfl
@[simp] theorem writeY_y (i : Fin 8) (v : Word) (s : State) : (writeY i v s).y = s.y.set i v := rfl
@[simp] theorem writeY_prng (i : Fin 8) (v : Word) (s : State) : (writeY i v s).prng = s.prng := rfl
@[simp] theorem writeY_lastcmd (i : Fin 8) (v : Word) (s : State) : (writeY i v s).lastcmd = s.lastcmd := rfl
@[simp] theorem writeY_err (i : Fin 8) (v : Word) (s : State) : (writeY i v s).err = s.err := rfl
@[simp] theorem writeY_cause (i : Fin 8) (v : Word) (s : State) : (writeY i v s).cause = s.cause := rfl
@[simp] theorem writeY_pending (i : Fin 8) (v : Word) (s : State) : (writeY i v s).pending = s.pending := rfl
@[simp] theorem writeY_replies (i : Fin 8) (v : Word) (s : State) : (writeY i v s).replies = s.replies := rfl

@[simp] theorem setPrng_a (v : Word) (s : State) : (setPrng v s).a = s.a := rfl
@[simp] theorem setPrng_y (v : Word) (s : State) : (setPrng v s).y = s.y := rfl
@[simp] theorem setPrng_prng (v : Word) (s : State) : (setPrng v s).prng = v := rfl
@[simp] theorem setPrng_lastcmd (v : Word) (s : State) : (setPrng v s).lastcmd = s.lastcmd := rfl
@[simp] theorem setPrng_err (v : Word) (s : State) : (setPrng v s).err = s.err := rfl
@[simp] theorem setPrng_cause (v : Word) (s : State) : (setPrng v s).cause = s.cause := rfl
@[simp] theorem setPrng_pending (v : Word) (s : State) : (setPrng v s).pending = s.pending := rfl
@[simp] theorem setPrng_replies (v : Word) (s : State) : (setPrng v s).replies = s.replies := rfl

@[simp] theorem setLastcmd_a (w : Word) (s : State) : (setLastcmd w s).a = s.a := rfl
@[simp] theorem setLastcmd_y (w : Word) (s : State) : (setLastcmd w s).y = s.y := rfl
@[simp] theorem setLastcmd_prng (w : Word) (s : State) : (setLastcmd w s).prng = s.prng := rfl
@[simp] theorem setLastcmd_lastcmd (w : Word) (s : State) : (setLastcmd w s).lastcmd = w := rfl
@[simp] theorem setLastcmd_err (w : Word) (s : State) : (setLastcmd w s).err = s.err := rfl
@[simp] theorem setLastcmd_cause (w : Word) (s : State) : (setLastcmd w s).cause = s.cause := rfl
@[simp] theorem setLastcmd_pending (w : Word) (s : State) : (setLastcmd w s).pending = s.pending := rfl
@[simp] theorem setLastcmd_replies (w : Word) (s : State) : (setLastcmd w s).replies = s.replies := rfl

@[simp] theorem setStatus_a (f : Bool × BitVec 4) (s : State) : (setStatus f s).a = s.a := rfl
@[simp] theorem setStatus_y (f : Bool × BitVec 4) (s : State) : (setStatus f s).y = s.y := rfl
@[simp] theorem setStatus_prng (f : Bool × BitVec 4) (s : State) : (setStatus f s).prng = s.prng := rfl
@[simp] theorem setStatus_lastcmd (f : Bool × BitVec 4) (s : State) : (setStatus f s).lastcmd = s.lastcmd := rfl
@[simp] theorem setStatus_err (f : Bool × BitVec 4) (s : State) : (setStatus f s).err = f.1 := rfl
@[simp] theorem setStatus_cause (f : Bool × BitVec 4) (s : State) : (setStatus f s).cause = f.2 := rfl
@[simp] theorem setStatus_pending (f : Bool × BitVec 4) (s : State) : (setStatus f s).pending = s.pending := rfl
@[simp] theorem setStatus_replies (f : Bool × BitVec 4) (s : State) : (setStatus f s).replies = s.replies := rfl

@[simp] theorem setPending_a (l : List PortEvent) (s : State) : (setPending l s).a = s.a := rfl
@[simp] theorem setPending_y (l : List PortEvent) (s : State) : (setPending l s).y = s.y := rfl
@[simp] theorem setPending_prng (l : List PortEvent) (s : State) : (setPending l s).prng = s.prng := rfl
@[simp] theorem setPending_lastcmd (l : List PortEvent) (s : State) : (setPending l s).lastcmd = s.lastcmd := rfl
@[simp] theorem setPending_err (l : List PortEvent) (s : State) : (setPending l s).err = s.err := rfl
@[simp] theorem setPending_cause (l : List PortEvent) (s : State) : (setPending l s).cause = s.cause := rfl
@[simp] theorem setPending_pending (l : List PortEvent) (s : State) : (setPending l s).pending = l := rfl
@[simp] theorem setPending_replies (l : List PortEvent) (s : State) : (setPending l s).replies = s.replies := rfl

@[simp] theorem respond_a (r : Reply) (s : State) : (respond r s).a = s.a := rfl
@[simp] theorem respond_y (r : Reply) (s : State) : (respond r s).y = s.y := rfl
@[simp] theorem respond_prng (r : Reply) (s : State) : (respond r s).prng = s.prng := rfl
@[simp] theorem respond_lastcmd (r : Reply) (s : State) : (respond r s).lastcmd = s.lastcmd := rfl
@[simp] theorem respond_err (r : Reply) (s : State) : (respond r s).err = s.err := rfl
@[simp] theorem respond_cause (r : Reply) (s : State) : (respond r s).cause = s.cause := rfl
@[simp] theorem respond_pending (r : Reply) (s : State) : (respond r s).pending = s.pending := rfl
@[simp] theorem respond_replies (r : Reply) (s : State) : (respond r s).replies = r :: s.replies := rfl

@[simp] theorem raiseIllegalCommand_a (c : IllegalCause) (s : State) : (raiseIllegalCommand c s).a = s.a := rfl
@[simp] theorem raiseIllegalCommand_y (c : IllegalCause) (s : State) : (raiseIllegalCommand c s).y = s.y := rfl
@[simp] theorem raiseIllegalCommand_prng (c : IllegalCause) (s : State) : (raiseIllegalCommand c s).prng = s.prng := rfl
@[simp] theorem raiseIllegalCommand_lastcmd (c : IllegalCause) (s : State) : (raiseIllegalCommand c s).lastcmd = s.lastcmd := rfl
@[simp] theorem raiseIllegalCommand_err (c : IllegalCause) (s : State) : (raiseIllegalCommand c s).err = (recordIllegal c s.err s.cause).1 := rfl
@[simp] theorem raiseIllegalCommand_cause (c : IllegalCause) (s : State) : (raiseIllegalCommand c s).cause = (recordIllegal c s.err s.cause).2 := rfl
@[simp] theorem raiseIllegalCommand_pending (c : IllegalCause) (s : State) : (raiseIllegalCommand c s).pending = s.pending := rfl
@[simp] theorem raiseIllegalCommand_replies (c : IllegalCause) (s : State) : (raiseIllegalCommand c s).replies = s.replies := rfl

@[simp] theorem writeStatus_a (v : Word) (s : State) : (writeStatus v s).a = s.a := rfl
@[simp] theorem writeStatus_y (v : Word) (s : State) : (writeStatus v s).y = s.y := rfl
@[simp] theorem writeStatus_prng (v : Word) (s : State) : (writeStatus v s).prng = s.prng := rfl
@[simp] theorem writeStatus_lastcmd (v : Word) (s : State) : (writeStatus v s).lastcmd = s.lastcmd := rfl
@[simp] theorem writeStatus_err (v : Word) (s : State) : (writeStatus v s).err = (clearByWrite v s.err s.cause).1 := rfl
@[simp] theorem writeStatus_cause (v : Word) (s : State) : (writeStatus v s).cause = (clearByWrite v s.err s.cause).2 := rfl
@[simp] theorem writeStatus_pending (v : Word) (s : State) : (writeStatus v s).pending = s.pending := rfl
@[simp] theorem writeStatus_replies (v : Word) (s : State) : (writeStatus v s).replies = s.replies := rfl

@[simp] theorem resetBlock_a (s : State) : (resetBlock s).a = Vector.replicate 16 0 := rfl
@[simp] theorem resetBlock_y (s : State) : (resetBlock s).y = Vector.replicate 8 0 := rfl
@[simp] theorem resetBlock_prng (s : State) : (resetBlock s).prng = Config.seedZeroSubst := rfl
@[simp] theorem resetBlock_lastcmd (s : State) : (resetBlock s).lastcmd = 0 := rfl
@[simp] theorem resetBlock_err (s : State) : (resetBlock s).err = false := rfl
@[simp] theorem resetBlock_cause (s : State) : (resetBlock s).cause = 0 := rfl
@[simp] theorem resetBlock_pending (s : State) : (resetBlock s).pending = s.pending := rfl
@[simp] theorem resetBlock_replies (s : State) : (resetBlock s).replies = s.replies := rfl

end Sys2Proof.Machine
end

