-- ==== Sys2Proof/Laws/Ops.lean ====
section
/-! SUPPORT. One lemma for each shared operation over the registers, saying once everything it does. -/

namespace Sys2Proof.Machine

/-! Reading after writing. -/

theorem readA_writeA (i j : Fin 16) (v : Word) (s : State) :
    readA j (writeA i v s) = if i = j then v else readA j s := by
  simp [readA, Vector.getElem_set, Fin.ext_iff]

theorem readY_writeY (i j : Fin 8) (v : Word) (s : State) :
    readY j (writeY i v s) = if i = j then v else readY j s := by
  simp [readY, Vector.getElem_set, Fin.ext_iff]

@[simp] theorem readY_writeA (i : Fin 16) (j : Fin 8) (v : Word) (s : State) : readY j (writeA i v s) = readY j s := rfl
@[simp] theorem readA_writeY (i : Fin 8) (j : Fin 16) (v : Word) (s : State) : readA j (writeY i v s) = readA j s := rfl
@[simp] theorem readA_setPrng (j : Fin 16) (v : Word) (s : State) : readA j (setPrng v s) = readA j s := rfl
@[simp] theorem readY_setPrng (j : Fin 8) (v : Word) (s : State) : readY j (setPrng v s) = readY j s := rfl
@[simp] theorem readA_setLastcmd (j : Fin 16) (v : Word) (s : State) : readA j (setLastcmd v s) = readA j s := rfl
@[simp] theorem readY_setLastcmd (j : Fin 8) (v : Word) (s : State) : readY j (setLastcmd v s) = readY j s := rfl
@[simp] theorem readA_setPending (j : Fin 16) (l : List PortEvent) (s : State) : readA j (setPending l s) = readA j s := rfl
@[simp] theorem readY_setPending (j : Fin 8) (l : List PortEvent) (s : State) : readY j (setPending l s) = readY j s := rfl
@[simp] theorem readA_respond (j : Fin 16) (r : Reply) (s : State) : readA j (respond r s) = readA j s := rfl
@[simp] theorem readY_respond (j : Fin 8) (r : Reply) (s : State) : readY j (respond r s) = readY j s := rfl
@[simp] theorem readA_setStatus (j : Fin 16) (f : Bool × BitVec 4) (s : State) : readA j (setStatus f s) = readA j s := rfl
@[simp] theorem readY_setStatus (j : Fin 8) (f : Bool × BitVec 4) (s : State) : readY j (setStatus f s) = readY j s := rfl
@[simp] theorem readA_reset (j : Fin 16) : readA j State.reset = 0 := by simp [readA, State.reset]
@[simp] theorem readY_reset (j : Fin 8) : readY j State.reset = 0 := by simp [readY, State.reset]

/-- Two result files are equal when every register reads the same. -/
theorem y_ext {s t : State} (h : ∀ j, readY j s = readY j t) : s.y = t.y := by
  apply Vector.ext
  intro i hi
  exact h ⟨i, hi⟩

/-- Two operand files are equal when every register reads the same. -/
theorem a_ext {s t : State} (h : ∀ j, readA j s = readA j t) : s.a = t.a := by
  apply Vector.ext
  intro i hi
  exact h ⟨i, hi⟩

/-! The lane loops. -/

/-- A lane loop reaches a lane exactly when the lane is below the count. -/
theorem mem_lanes (n : Nat) (i : Fin 4) : i ∈ lanes n ↔ i.val < n := by
  match n with
  | 0 => simp [lanes]
  | 1 => revert i; decide
  | 2 => revert i; decide
  | 3 => revert i; decide
  | n + 4 => fin_cases i <;> simp [lanes]

/-- What a lane loop leaves alone: everything but `Y`. -/
theorem writeLanes_frame (n : Nat) (f : Fin 4 → Word) (s : State) :
    ∃ y, writeLanes n f s = { s with y := y } := by
  unfold writeLanes
  generalize lanes n = l
  induction l generalizing s with
  | nil => exact ⟨s.y, rfl⟩
  | cons i l ih => obtain ⟨y, hy⟩ := ih (writeY (lowY i) (f i) s); exact ⟨y, hy⟩

/-- What a lane loop writes: `Y[i]` of each lane below the count, and no other `Y`. -/
theorem readY_writeLanes (n : Nat) (f : Fin 4 → Word) (s : State) (j : Fin 8) :
    readY j (writeLanes n f s) = if h : j.val < 4 ∧ j.val < n then f ⟨j.val, h.1⟩ else readY j s := by
  match n with
  | 0 | 1 | 2 | 3 | n + 4 =>
    fin_cases j <;> simp [writeLanes, lanes, readY_writeY, lowY, Fin.ext_iff]

/-- What a loop over lane pairs leaves alone: everything but `Y`. -/
theorem writeLanePairs_frame (n : Nat) (f : Fin 4 → Word × Word) (s : State) :
    ∃ y, writeLanePairs n f s = { s with y := y } := by
  unfold writeLanePairs
  generalize lanes n = l
  induction l generalizing s with
  | nil => exact ⟨s.y, rfl⟩
  | cons i l ih => obtain ⟨y, hy⟩ := ih (writeY (highY i) (f i).2 (writeY (lowY i) (f i).1 s)); exact ⟨y, hy⟩

/-- What a loop over lane pairs writes: `Y[i]` and `Y[4+i]` of each lane below the count, and no other `Y`. -/
theorem readY_writeLanePairs (n : Nat) (f : Fin 4 → Word × Word) (s : State) (i : Fin 4) :
    readY (lowY i) (writeLanePairs n f s) = (if i.val < n then (f i).1 else readY (lowY i) s) ∧
    readY (highY i) (writeLanePairs n f s) = (if i.val < n then (f i).2 else readY (highY i) s) := by
  match n with
  | 0 | 1 | 2 | 3 | n + 4 =>
    fin_cases i <;> simp [writeLanePairs, lanes, readY_writeY, lowY, highY, Fin.ext_iff]

/-! The flags. -/

/-- Recording an illegal command, said once (60_exceptions.md R203, R204). -/
theorem recordIllegal_eq (c : IllegalCause) (err : Bool) (cause : BitVec 4) :
    (err = false ∧ recordIllegal c err cause = (true, causeCode c)) ∨
    (err = true ∧ recordIllegal c err cause = (true, cause)) := by
  cases err <;> simp [recordIllegal]

/-- A STATUS write, said once (20_memory.md R57). -/
theorem clearByWrite_eq (v : Word) (err : Bool) (cause : BitVec 4) :
    (v.getLsbD 0 = true ∧ clearByWrite v err cause = (false, 0)) ∨
    (v.getLsbD 0 = false ∧ clearByWrite v err cause = (err, cause)) := by
  unfold clearByWrite
  cases v.getLsbD 0 <;> simp

end Sys2Proof.Machine
end

