-- ==== Sys2Proof/Laws/PerInstr.lean ====
section
/-! SUPPORT. Families of lemmas with one lemma per command, about the command as syntax. -/

namespace Sys2Proof.Laws

/-- The word of the command breaks no rule of legality (30_encoding.md R75 to R77). -/
abbrev EncodingLegal.Statement (i : Instr) : Prop := (commandFields (encode i)).wellFormed = true

theorem EncodingLegal.nop : EncodingLegal.Statement .nop := by decide
theorem EncodingLegal.f32tof16_1 : EncodingLegal.Statement .f32tof16_1 := by decide
theorem EncodingLegal.f32tof16_2 : EncodingLegal.Statement .f32tof16_2 := by decide
theorem EncodingLegal.f32tof16_3 : EncodingLegal.Statement .f32tof16_3 := by decide
theorem EncodingLegal.f32tof16_4 : EncodingLegal.Statement .f32tof16_4 := by decide
theorem EncodingLegal.f16tof32_1 : EncodingLegal.Statement .f16tof32_1 := by decide
theorem EncodingLegal.f16tof32_2 : EncodingLegal.Statement .f16tof32_2 := by decide
theorem EncodingLegal.f16tof32_3 : EncodingLegal.Statement .f16tof32_3 := by decide
theorem EncodingLegal.f16tof32_4 : EncodingLegal.Statement .f16tof32_4 := by decide
theorem EncodingLegal.sincos_1 : EncodingLegal.Statement .sincos_1 := by decide
theorem EncodingLegal.sincos_2 : EncodingLegal.Statement .sincos_2 := by decide
theorem EncodingLegal.sincos_3 : EncodingLegal.Statement .sincos_3 := by decide
theorem EncodingLegal.sincos_4 : EncodingLegal.Statement .sincos_4 := by decide
theorem EncodingLegal.hash_2x1 : EncodingLegal.Statement .hash_2x1 := by decide
theorem EncodingLegal.hash_3x1 : EncodingLegal.Statement .hash_3x1 := by decide
theorem EncodingLegal.hash_4x1 : EncodingLegal.Statement .hash_4x1 := by decide
theorem EncodingLegal.hash_2x2 : EncodingLegal.Statement .hash_2x2 := by decide
theorem EncodingLegal.hash_3x2 : EncodingLegal.Statement .hash_3x2 := by decide
theorem EncodingLegal.hash_4x2 : EncodingLegal.Statement .hash_4x2 := by decide
theorem EncodingLegal.hash_2x3 : EncodingLegal.Statement .hash_2x3 := by decide
theorem EncodingLegal.hash_3x3 : EncodingLegal.Statement .hash_3x3 := by decide
theorem EncodingLegal.hash_4x3 : EncodingLegal.Statement .hash_4x3 := by decide
theorem EncodingLegal.hash_2x4 : EncodingLegal.Statement .hash_2x4 := by decide
theorem EncodingLegal.hash_3x4 : EncodingLegal.Statement .hash_3x4 := by decide
theorem EncodingLegal.hash_4x4 : EncodingLegal.Statement .hash_4x4 := by decide
theorem EncodingLegal.hashwide_2x1 : EncodingLegal.Statement .hashwide_2x1 := by decide
theorem EncodingLegal.hashwide_3x1 : EncodingLegal.Statement .hashwide_3x1 := by decide
theorem EncodingLegal.hashwide_4x1 : EncodingLegal.Statement .hashwide_4x1 := by decide
theorem EncodingLegal.hashwide_2x2 : EncodingLegal.Statement .hashwide_2x2 := by decide
theorem EncodingLegal.hashwide_3x2 : EncodingLegal.Statement .hashwide_3x2 := by decide
theorem EncodingLegal.hashwide_4x2 : EncodingLegal.Statement .hashwide_4x2 := by decide
theorem EncodingLegal.hashwide_2x3 : EncodingLegal.Statement .hashwide_2x3 := by decide
theorem EncodingLegal.hashwide_3x3 : EncodingLegal.Statement .hashwide_3x3 := by decide
theorem EncodingLegal.hashwide_4x3 : EncodingLegal.Statement .hashwide_4x3 := by decide
theorem EncodingLegal.hashwide_2x4 : EncodingLegal.Statement .hashwide_2x4 := by decide
theorem EncodingLegal.hashwide_3x4 : EncodingLegal.Statement .hashwide_3x4 := by decide
theorem EncodingLegal.hashwide_4x4 : EncodingLegal.Statement .hashwide_4x4 := by decide
theorem EncodingLegal.seed : EncodingLegal.Statement .seed := by decide
theorem EncodingLegal.nextuint_1 : EncodingLegal.Statement .nextuint_1 := by decide
theorem EncodingLegal.nextuint_2 : EncodingLegal.Statement .nextuint_2 := by decide
theorem EncodingLegal.nextuint_3 : EncodingLegal.Statement .nextuint_3 := by decide
theorem EncodingLegal.nextuint_4 : EncodingLegal.Statement .nextuint_4 := by decide

/-- The count fields of the command's word are the suffix of its mnemonic, each minus one (30_encoding.md R72, R80). -/
abbrev OperandFields.Statement (i : Instr) : Prop := (commandFields (encode i)).operands = i.operands

theorem OperandFields.nop : OperandFields.Statement .nop := by decide
theorem OperandFields.f32tof16_1 : OperandFields.Statement .f32tof16_1 := by decide
theorem OperandFields.f32tof16_2 : OperandFields.Statement .f32tof16_2 := by decide
theorem OperandFields.f32tof16_3 : OperandFields.Statement .f32tof16_3 := by decide
theorem OperandFields.f32tof16_4 : OperandFields.Statement .f32tof16_4 := by decide
theorem OperandFields.f16tof32_1 : OperandFields.Statement .f16tof32_1 := by decide
theorem OperandFields.f16tof32_2 : OperandFields.Statement .f16tof32_2 := by decide
theorem OperandFields.f16tof32_3 : OperandFields.Statement .f16tof32_3 := by decide
theorem OperandFields.f16tof32_4 : OperandFields.Statement .f16tof32_4 := by decide
theorem OperandFields.sincos_1 : OperandFields.Statement .sincos_1 := by decide
theorem OperandFields.sincos_2 : OperandFields.Statement .sincos_2 := by decide
theorem OperandFields.sincos_3 : OperandFields.Statement .sincos_3 := by decide
theorem OperandFields.sincos_4 : OperandFields.Statement .sincos_4 := by decide
theorem OperandFields.hash_2x1 : OperandFields.Statement .hash_2x1 := by decide
theorem OperandFields.hash_3x1 : OperandFields.Statement .hash_3x1 := by decide
theorem OperandFields.hash_4x1 : OperandFields.Statement .hash_4x1 := by decide
theorem OperandFields.hash_2x2 : OperandFields.Statement .hash_2x2 := by decide
theorem OperandFields.hash_3x2 : OperandFields.Statement .hash_3x2 := by decide
theorem OperandFields.hash_4x2 : OperandFields.Statement .hash_4x2 := by decide
theorem OperandFields.hash_2x3 : OperandFields.Statement .hash_2x3 := by decide
theorem OperandFields.hash_3x3 : OperandFields.Statement .hash_3x3 := by decide
theorem OperandFields.hash_4x3 : OperandFields.Statement .hash_4x3 := by decide
theorem OperandFields.hash_2x4 : OperandFields.Statement .hash_2x4 := by decide
theorem OperandFields.hash_3x4 : OperandFields.Statement .hash_3x4 := by decide
theorem OperandFields.hash_4x4 : OperandFields.Statement .hash_4x4 := by decide
theorem OperandFields.hashwide_2x1 : OperandFields.Statement .hashwide_2x1 := by decide
theorem OperandFields.hashwide_3x1 : OperandFields.Statement .hashwide_3x1 := by decide
theorem OperandFields.hashwide_4x1 : OperandFields.Statement .hashwide_4x1 := by decide
theorem OperandFields.hashwide_2x2 : OperandFields.Statement .hashwide_2x2 := by decide
theorem OperandFields.hashwide_3x2 : OperandFields.Statement .hashwide_3x2 := by decide
theorem OperandFields.hashwide_4x2 : OperandFields.Statement .hashwide_4x2 := by decide
theorem OperandFields.hashwide_2x3 : OperandFields.Statement .hashwide_2x3 := by decide
theorem OperandFields.hashwide_3x3 : OperandFields.Statement .hashwide_3x3 := by decide
theorem OperandFields.hashwide_4x3 : OperandFields.Statement .hashwide_4x3 := by decide
theorem OperandFields.hashwide_2x4 : OperandFields.Statement .hashwide_2x4 := by decide
theorem OperandFields.hashwide_3x4 : OperandFields.Statement .hashwide_3x4 := by decide
theorem OperandFields.hashwide_4x4 : OperandFields.Statement .hashwide_4x4 := by decide
theorem OperandFields.seed : OperandFields.Statement .seed := by decide
theorem OperandFields.nextuint_1 : OperandFields.Statement .nextuint_1 := by decide
theorem OperandFields.nextuint_2 : OperandFields.Statement .nextuint_2 := by decide
theorem OperandFields.nextuint_3 : OperandFields.Statement .nextuint_3 := by decide
theorem OperandFields.nextuint_4 : OperandFields.Statement .nextuint_4 := by decide

end Sys2Proof.Laws
end

