-- ==== Sys2Proof/Laws/Units.lean ====
section
/-! SUPPORT. What each unit's shared operation does, said once, and that the open parameters range over exactly the
functions and tables that the spec admits. -/

namespace Sys2Proof.Machine

/-! The half codec. -/

theorem narrowLanes_frame (n : Nat) (s : State) : ∃ y, narrowLanes n s = { s with y := y } := writeLanes_frame n _ s

theorem readY_narrowLanes (n : Nat) (s : State) (j : Fin 8) :
    readY j (narrowLanes n s) = if h : j.val < 4 ∧ j.val < n
      then halfResult (f2h Config.halfUnderflow (readA (laneA ⟨j.val, h.1⟩) s)) else readY j s :=
  readY_writeLanes n _ s j

theorem widenLanes_frame (n : Nat) (s : State) : ∃ y, widenLanes n s = { s with y := y } := writeLanes_frame n _ s

theorem readY_widenLanes (n : Nat) (s : State) (j : Fin 8) :
    readY j (widenLanes n s) = if h : j.val < 4 ∧ j.val < n
      then h2f (halfOperand (readA (laneA ⟨j.val, h.1⟩) s)) else readY j s :=
  readY_writeLanes n _ s j

/-! SinCos. -/

theorem sincosLanes_frame (n : Nat) (s : State) : ∃ y, sincosLanes n s = { s with y := y } := writeLanePairs_frame n _ s

theorem readY_sincosLanes (n : Nat) (s : State) (i : Fin 4) :
    readY (lowY i) (sincosLanes n s) = (if i.val < n then (sincosFn (readA (laneA i) s)).1 else readY (lowY i) s) ∧
    readY (highY i) (sincosLanes n s) = (if i.val < n then (sincosFn (readA (laneA i) s)).2 else readY (highY i) s) :=
  readY_writeLanePairs n _ s i

/-- Every evaluator of the model's form meets the bound on every finite input. -/
theorem sincosOf_pairOk (raw : Word → Word × Word) (x : Word) (hx : isFinite32 x = true) :
    sincosPairOk (sincosOf raw x) = true := by
  unfold sincosOf
  simp only [hx, Bool.true_eq_false, if_false]
  split
  · assumption
  · decide

/-- Every function that meets 42_sincos.md R131 and R133 is an evaluator of the model's form: nothing is left out. -/
theorem sincosOf_onto (f : Word → Word × Word)
    (hfin : ∀ x, isFinite32 x = true → sincosPairOk (f x) = true)
    (hnon : ∀ x, isFinite32 x = false → f x = (sincosNaN, sincosNaN)) : sincosOf f = f := by
  funext x
  unfold sincosOf
  cases h : isFinite32 x with
  | false => simp [hnon x h]
  | true => simp [hfin x h]

/-! The hash mixer. -/

/-- Every table of the model's form meets 43_hash.md R152 on the shape. -/
theorem tableOf_legal (rows cols : Nat) (raw : Fin 4 → Fin 4 → Word) (hr : rows ≤ 4) (hc : cols ≤ 4) :
    tableLegal rows cols (tableOf rows cols raw) = true := by
  cases h : tableLegal rows cols raw with
  | true =>
    have : tableOf rows cols raw = raw := by funext c r; simp [tableOf, h]
    rw [this, h]
  | false =>
    have : tableOf rows cols raw = fun c r => BitVec.ofNat 32 (2 * (4 * c.val + r.val) + 1) := by
      funext c r; simp [tableOf, h]
    rw [this]
    interval_cases rows <;> interval_cases cols <;> decide

/-- Every table that meets 43_hash.md R152 is a table of the model's form: nothing is left out. -/
theorem tableOf_onto (rows cols : Nat) (K : Fin 4 → Fin 4 → Word) (h : tableLegal rows cols K = true) :
    tableOf rows cols K = K := by
  funext c r
  simp [tableOf, h]

theorem hashShape_frame (rows cols : Nat) (s : State) : ∃ y, hashShape rows cols s = { s with y := y } := ⟨_, rfl⟩

theorem readY_hashShape (rows cols : Nat) (s : State) (j : Fin 8) :
    readY j (hashShape rows cols s) =
      if 0 = j then hashNarrow rows cols (hashK rows cols) (hashC rows cols) s else readY j s :=
  readY_writeY 0 j _ s

theorem hashwideShape_frame (rows cols : Nat) (s : State) : ∃ y, hashwideShape rows cols s = { s with y := y } :=
  writeLanes_frame rows _ s

theorem readY_hashwideShape (rows cols : Nat) (s : State) (j : Fin 8) :
    readY j (hashwideShape rows cols s) = if h : j.val < 4 ∧ j.val < rows
      then hashWideLane cols (wideK rows cols) (Config.wideC rows cols) s ⟨j.val, h.1⟩ else readY j s :=
  readY_writeLanes rows _ s j

/-! The generator. -/

/-- What a draw leaves alone: everything but `S` and `Y`. -/
theorem drawLanes_frame (n : Nat) (s : State) : ∃ p y, drawLanes n s = { s with prng := p, y := y } := by
  unfold drawLanes
  generalize lanes n = l
  induction l generalizing s with
  | nil => exact ⟨s.prng, s.y, rfl⟩
  | cons i l ih => obtain ⟨p, y, hy⟩ := ih (drawLane s i); exact ⟨p, y, hy⟩

/-- `S` after up to 4 draws: as many updates. -/
theorem drawLanes_prng (n : Nat) (hn : n ≤ 4) (s : State) : (drawLanes n s).prng = xorshift32^[n] s.prng := by
  interval_cases n <;> rfl

/-- `Y` after the draws: lane `i` holds the state after `i + 1` updates, the rest is as before. -/
theorem readY_drawLanes (n : Nat) (s : State) (j : Fin 8) :
    readY j (drawLanes n s) =
      if j.val < 4 ∧ j.val < n then xorshift32^[j.val + 1] s.prng else readY j s := by
  match n with
  | 0 | 1 | 2 | 3 | n + 4 =>
    fin_cases j <;> simp [drawLanes, drawLane, lanes, readY_writeY, lowY, Fin.ext_iff]

end Sys2Proof.Machine
end

