-- ==== Sys2Proof/Laws/Port.lean ====
section
/-! SUPPORT. What a step of the port can do, said once: every invariant is proved from these cases. -/

namespace Sys2Proof.Machine

/-- Everything `runCommandWord` does. -/
theorem runCommandWord_eq (w : Word) (s : State) :
    (∃ i, decode w = .legal i ∧ runCommandWord w s = exec i s) ∨
    (∃ c, decode w = .illegal c ∧ runCommandWord w s = .next (raiseIllegalCommand c s)) := by
  unfold runCommandWord
  cases h : decode w with
  | legal i => exact .inl ⟨i, rfl, rfl⟩
  | illegal c => exact .inr ⟨c, rfl, rfl⟩

/-- A response after an outcome reaches a next state only through a next state. -/
theorem respondAfter_next {r : Reply} {o : Host.Outcome State Fault Refusal} {t : State}
    (h : respondAfter r o = .next t) : ∃ u, o = .next u ∧ t = respond r u := by
  cases o with
  | next u => exact ⟨u, rfl, by simpa [respondAfter] using h.symm⟩
  | fault f => simp [respondAfter] at h
  | refused x => simp [respondAfter] at h

/-- Everything a host access that completes can be: a read of a register, or a write of A, CMD or STATUS. -/
theorem performAccess_next {acc : Access} {s t : State} (h : performAccess acc s = .next t) :
    acc.width = .bytes 4 ∧
    ((∃ r, registerAt acc.offset = some r ∧ acc.op = .read ∧ t = respond (.readData acc.host (windowRead r s)) s) ∨
     (∃ i v, registerAt acc.offset = some (.a i) ∧ acc.op = .write v ∧ t = respond (.writeDone acc.host) (writeA i v s)) ∨
     (∃ w u, registerAt acc.offset = some .cmd ∧ acc.op = .write w ∧ runCommandWord w (setLastcmd w s) = .next u ∧
       t = respond (.writeDone acc.host) u) ∨
     (∃ v, registerAt acc.offset = some .status ∧ acc.op = .write v ∧
       t = respond (.writeDone acc.host) (writeStatus v s))) := by
  unfold performAccess at h
  split at h
  · rename_i hw
    refine ⟨hw, ?_⟩
    split at h
    · simp at h
    · rename_i r hr
      cases hop : acc.op with
      | read =>
        rw [hop] at h
        exact .inl ⟨r, hr, rfl, by simpa using h.symm⟩
      | write v =>
        rw [hop] at h
        obtain ⟨u, hu, rfl⟩ := respondAfter_next h
        cases r with
        | a i => exact .inr (.inl ⟨i, v, hr, rfl, by simp [windowWrite] at hu; rw [hu]⟩)
        | y i => simp [windowWrite] at hu
        | prngState => simp [windowWrite] at hu
        | cmd => exact .inr (.inr (.inl ⟨v, u, hr, rfl, hu, rfl⟩))
        | status => exact .inr (.inr (.inr ⟨v, hr, rfl, by simp [windowWrite] at hu; rw [hu]⟩))
  · simp at h

/-- Everything a step that goes on can be: waiting, a reset, or a host access. -/
theorem step_next {s t : State} (h : step s = .next t) :
    (s.pending = [] ∧ t = s) ∨
    (∃ rest, s.pending = .reset :: rest ∧ t = resetBlock (setPending rest s)) ∨
    (∃ acc rest, s.pending = .access acc :: rest ∧ performAccess acc (setPending rest s) = .next t) := by
  unfold step portStep at h
  split at h
  · rename_i hp
    exact .inl ⟨hp, by simpa using h.symm⟩
  · rename_i rest hp
    exact .inr (.inl ⟨rest, hp, by simpa using h.symm⟩)
  · rename_i acc rest hp
    exact .inr (.inr ⟨acc, rest, hp, h⟩)

end Sys2Proof.Machine
end

