-- ==== Sys2Proof/Tests/Slice0.lean ====
section
/-! SUPPORT. Tests with expected values from the spec (95_test_vectors.md unless a comment says otherwise), and for each statement
with hypotheses a witness that meets them all. -/

open Sys2Proof Sys2Proof.Machine

namespace Sys2Proof.Tests

/-! Well-formedness: for each check, fields that only it refuses (30_encoding.md R75 to R77), and operands out of range. -/

theorem test_wellFormed_refuses_reserved_opcode : CommandFields.wellFormed ⟨8, 0, 0, 0⟩ = false := by decide
theorem test_wellFormed_refuses_rsv : CommandFields.wellFormed ⟨7, 0, 0, 1⟩ = false := by decide
theorem test_wellFormed_refuses_cf : CommandFields.wellFormed ⟨1, 0, 1, 0⟩ = false := by decide
theorem test_wellFormed_refuses_nf_of_nop : CommandFields.wellFormed ⟨0, 1, 0, 0⟩ = false := by decide
theorem test_wellFormed_refuses_nf_of_seed : CommandFields.wellFormed ⟨6, 1, 0, 0⟩ = false := by decide
theorem test_wellFormed_refuses_one_row : CommandFields.wellFormed ⟨4, 0, 0, 0⟩ = false := by decide
theorem test_wellFormed_accepts : CommandFields.wellFormed ⟨5, 3, 3, 0⟩ = true := by decide
theorem test_operands_wellFormed_refuses :
    Operands.wellFormed (.lanes 0) = false ∧ Operands.wellFormed (.lanes 5) = false ∧
    Operands.wellFormed (.matrix 1 1) = false ∧ Operands.wellFormed (.matrix 5 1) = false ∧
    Operands.wellFormed (.matrix 2 0) = false ∧ Operands.wellFormed (.matrix 2 5) = false := by decide

/-! Decoding: every command's word, written out field by field (RSV, CF, NF, OP) from 30_encoding.md R71 and R73. -/

theorem test_decode_nop :
    decode 0b00000000000000000000000000000000 = .legal .nop := by decide

theorem test_decode_f32tof16 :
    decode 0b00000000000000000000000000000001 = .legal .f32tof16_1 ∧
    decode 0b00000000000000000000000000010001 = .legal .f32tof16_2 ∧
    decode 0b00000000000000000000000000100001 = .legal .f32tof16_3 ∧
    decode 0b00000000000000000000000000110001 = .legal .f32tof16_4 := by decide

theorem test_decode_f16tof32 :
    decode 0b00000000000000000000000000000010 = .legal .f16tof32_1 ∧
    decode 0b00000000000000000000000000010010 = .legal .f16tof32_2 ∧
    decode 0b00000000000000000000000000100010 = .legal .f16tof32_3 ∧
    decode 0b00000000000000000000000000110010 = .legal .f16tof32_4 := by decide

theorem test_decode_sincos :
    decode 0b00000000000000000000000000000011 = .legal .sincos_1 ∧
    decode 0b00000000000000000000000000010011 = .legal .sincos_2 ∧
    decode 0b00000000000000000000000000100011 = .legal .sincos_3 ∧
    decode 0b00000000000000000000000000110011 = .legal .sincos_4 := by decide

theorem test_decode_hash :
    decode 0b00000000000000000000000000010100 = .legal .hash_2x1 ∧
    decode 0b00000000000000000000000000100100 = .legal .hash_3x1 ∧
    decode 0b00000000000000000000000000110100 = .legal .hash_4x1 ∧
    decode 0b00000000000000000000000001010100 = .legal .hash_2x2 ∧
    decode 0b00000000000000000000000001100100 = .legal .hash_3x2 ∧
    decode 0b00000000000000000000000001110100 = .legal .hash_4x2 ∧
    decode 0b00000000000000000000000010010100 = .legal .hash_2x3 ∧
    decode 0b00000000000000000000000010100100 = .legal .hash_3x3 ∧
    decode 0b00000000000000000000000010110100 = .legal .hash_4x3 ∧
    decode 0b00000000000000000000000011010100 = .legal .hash_2x4 ∧
    decode 0b00000000000000000000000011100100 = .legal .hash_3x4 ∧
    decode 0b00000000000000000000000011110100 = .legal .hash_4x4 := by decide

theorem test_decode_hashwide :
    decode 0b00000000000000000000000000010101 = .legal .hashwide_2x1 ∧
    decode 0b00000000000000000000000000100101 = .legal .hashwide_3x1 ∧
    decode 0b00000000000000000000000000110101 = .legal .hashwide_4x1 ∧
    decode 0b00000000000000000000000001010101 = .legal .hashwide_2x2 ∧
    decode 0b00000000000000000000000001100101 = .legal .hashwide_3x2 ∧
    decode 0b00000000000000000000000001110101 = .legal .hashwide_4x2 ∧
    decode 0b00000000000000000000000010010101 = .legal .hashwide_2x3 ∧
    decode 0b00000000000000000000000010100101 = .legal .hashwide_3x3 ∧
    decode 0b00000000000000000000000010110101 = .legal .hashwide_4x3 ∧
    decode 0b00000000000000000000000011010101 = .legal .hashwide_2x4 ∧
    decode 0b00000000000000000000000011100101 = .legal .hashwide_3x4 ∧
    decode 0b00000000000000000000000011110101 = .legal .hashwide_4x4 := by decide

theorem test_decode_seed :
    decode 0b00000000000000000000000000000110 = .legal .seed := by decide

theorem test_decode_nextuint :
    decode 0b00000000000000000000000000000111 = .legal .nextuint_1 ∧
    decode 0b00000000000000000000000000010111 = .legal .nextuint_2 ∧
    decode 0b00000000000000000000000000100111 = .legal .nextuint_3 ∧
    decode 0b00000000000000000000000000110111 = .legal .nextuint_4 := by decide

/-- V-D5 to V-D23. -/
theorem test_decode_illegal :
    decode 0x00000008 = .illegal .reservedOpcode ∧ decode 0x0000000F = .illegal .reservedOpcode ∧ decode 0xFFFFFFFF = .illegal .reservedOpcode ∧
    decode 0x00000108 = .illegal .reservedOpcode ∧ decode 0x00000100 = .illegal .reservedField ∧ decode 0x80000007 = .illegal .reservedField ∧
    decode 0x00000010 = .illegal .reservedField ∧ decode 0x00000040 = .illegal .reservedField ∧ decode 0x00000016 = .illegal .reservedField ∧
    decode 0x00000046 = .illegal .reservedField ∧ decode 0x00000041 = .illegal .reservedField ∧ decode 0x000000C3 = .illegal .reservedField ∧
    decode 0x00000104 = .illegal .reservedField ∧ decode 0x00000145 = .illegal .reservedField ∧ decode 0x00000004 = .illegal .illegalShape ∧
    decode 0x00000044 = .illegal .illegalShape ∧ decode 0x000000C4 = .illegal .illegalShape ∧ decode 0x00000005 = .illegal .illegalShape ∧
    decode 0x000000C5 = .illegal .illegalShape := by decide

theorem test_encode_hashwide_3x4 : encode .hashwide_3x4 = 0x000000E5 := by decide
theorem test_decodeTableWord : decodeTableWord 32 0x37 = some .nextuint_4 ∧ decodeTableWord 32 0x04 = none := by decide

/-! The half codec. -/

/-- V-F1 to V-F41. -/
theorem test_f2h_vectors :
    f2h .flushBelowMinSubnormal 0x00000000 = 0x0000 ∧ f2h .flushBelowMinSubnormal 0x80000000 = 0x8000 ∧ f2h .flushBelowMinSubnormal 0x3F800000 = 0x3C00 ∧
    f2h .flushBelowMinSubnormal 0xBF800000 = 0xBC00 ∧ f2h .flushBelowMinSubnormal 0x3F000000 = 0x3800 ∧ f2h .flushBelowMinSubnormal 0x40000000 = 0x4000 ∧
    f2h .flushBelowMinSubnormal 0x477FE000 = 0x7BFF ∧ f2h .flushBelowMinSubnormal 0x477FEFFF = 0x7BFF ∧ f2h .flushBelowMinSubnormal 0x477FF000 = 0x7C00 ∧
    f2h .flushBelowMinSubnormal 0x47800000 = 0x7C00 ∧ f2h .flushBelowMinSubnormal 0xC7800000 = 0xFC00 ∧ f2h .flushBelowMinSubnormal 0x7F7FFFFF = 0x7C00 ∧
    f2h .flushBelowMinSubnormal 0x7F800000 = 0x7C00 ∧ f2h .flushBelowMinSubnormal 0xFF800000 = 0xFC00 ∧ f2h .flushBelowMinSubnormal 0x7FC00000 = 0x7E00 ∧
    f2h .flushBelowMinSubnormal 0x7F800001 = 0x7E00 ∧ f2h .flushBelowMinSubnormal 0xFFC00001 = 0xFE00 ∧ f2h .flushBelowMinSubnormal 0x7FBFFFFF = 0x7E00 ∧
    f2h .flushBelowMinSubnormal 0x38800000 = 0x0400 ∧ f2h .flushBelowMinSubnormal 0x387FC000 = 0x03FF ∧ f2h .flushBelowMinSubnormal 0x387FE000 = 0x0400 ∧
    f2h .flushBelowMinSubnormal 0x387FF000 = 0x0400 ∧ f2h .flushBelowMinSubnormal 0x33800000 = 0x0001 ∧ f2h .flushBelowMinSubnormal 0x337FFFFF = 0x0000 ∧
    f2h .flushBelowMinSubnormal 0x33000001 = 0x0000 ∧ f2h .flushBelowMinSubnormal 0x33000000 = 0x0000 ∧ f2h .flushBelowMinSubnormal 0x32FFFFFF = 0x0000 ∧
    f2h .flushBelowMinSubnormal 0x33C00000 = 0x0002 ∧ f2h .flushBelowMinSubnormal 0x33A00000 = 0x0001 ∧ f2h .flushBelowMinSubnormal 0x33E00000 = 0x0002 ∧
    f2h .flushBelowMinSubnormal 0x00000001 = 0x0000 ∧ f2h .flushBelowMinSubnormal 0x807FFFFF = 0x8000 ∧ f2h .flushBelowMinSubnormal 0x3F801000 = 0x3C00 ∧
    f2h .flushBelowMinSubnormal 0x3F803000 = 0x3C02 ∧ f2h .flushBelowMinSubnormal 0x3F801001 = 0x3C01 ∧ f2h .flushBelowMinSubnormal 0x3F802000 = 0x3C01 ∧
    f2h .flushBelowMinSubnormal 0x3DCCCCCD = 0x2E66 ∧ f2h .flushBelowMinSubnormal 0x40490FDB = 0x4248 ∧ f2h .flushBelowMinSubnormal 0x42F6E979 = 0x57B7 ∧
    f2h .flushBelowMinSubnormal 0xC2F6E979 = 0xD7B7 ∧ f2h .flushBelowMinSubnormal 0x3EAAAAAB = 0x3555 := by decide

/-- V-F23 to V-F32 in the other mode, where 95_test_vectors.md gives it or says nothing differs. -/
theorem test_f2h_gradual_vectors :
    f2h .gradualRne 0x33800000 = 0x0001 ∧ f2h .gradualRne 0x337FFFFF = 0x0001 ∧ f2h .gradualRne 0x33000001 = 0x0001 ∧
    f2h .gradualRne 0x33000000 = 0x0000 ∧ f2h .gradualRne 0x32FFFFFF = 0x0000 ∧ f2h .gradualRne 0x33C00000 = 0x0002 ∧
    f2h .gradualRne 0x33A00000 = 0x0001 ∧ f2h .gradualRne 0x33E00000 = 0x0002 := by decide

/-- V-W1 to V-W21. -/
theorem test_h2f_vectors :
    h2f 0x0000 = 0x00000000 ∧ h2f 0x8000 = 0x80000000 ∧ h2f 0x0001 = 0x33800000 ∧
    h2f 0x8001 = 0xB3800000 ∧ h2f 0x03FF = 0x387FC000 ∧ h2f 0x0400 = 0x38800000 ∧
    h2f 0x0200 = 0x38000000 ∧ h2f 0x3C00 = 0x3F800000 ∧ h2f 0xBC00 = 0xBF800000 ∧
    h2f 0x3C01 = 0x3F802000 ∧ h2f 0x7BFF = 0x477FE000 ∧ h2f 0xFBFF = 0xC77FE000 ∧
    h2f 0x7C00 = 0x7F800000 ∧ h2f 0xFC00 = 0xFF800000 ∧ h2f 0x7E00 = 0x7FC00000 ∧
    h2f 0x7C01 = 0x7F802000 ∧ h2f 0xFE00 = 0xFFC00000 ∧ h2f 0x7FFF = 0x7FFFE000 ∧
    h2f 0x3555 = 0x3EAAA000 ∧ h2f 0x4248 = 0x40490000 ∧ h2f 0x5640 = 0x42C80000 := by decide

/-! SinCos: the acceptance checks V-S6 to V-S16 on a result pair. -/

theorem test_sincosPairOk_vectors :
    sincosPairOk (0x00000000, 0x3F800000) = true ∧ sincosPairOk (0x3F800000, 0x00000000) = true ∧ sincosPairOk (0x3F3504F3, 0x3F3504F3) = true ∧
    sincosPairOk (0x3F800004, 0x00000000) = true ∧ sincosPairOk (0x3F800005, 0x00000000) = false ∧ sincosPairOk (0x3F7FFFF8, 0x00000000) = true ∧
    sincosPairOk (0x3F7FFFF7, 0x00000000) = false ∧ sincosPairOk (0x3F800000, 0x3A831260) = true ∧ sincosPairOk (0x3F800000, 0x3A83126F) = false ∧
    sincosPairOk (0x3F800000, 0x3F800000) = false ∧ sincosPairOk (0xBF800004, 0x80000000) = true := by decide

/-- V-S1 to V-S5. -/
theorem test_sincos_nonfinite : [0x7F800000, 0xFF800000, 0x7FC00000, 0x7F800001, 0xFFFFFFFF].all
    (fun x => sincosFn x == (0x7FC00000, 0x7FC00000)) = true := by decide

/-! The hash mixer, over the test tables TC1 of 95_test_vectors.md section 2 (not the block's tables). -/

def tc1HashK (c r : Fin 4) : Word := BitVec.ofNat 32 (2 * (4 * c.val + r.val) + 3)
def tc1WideK (c r : Fin 4) : Word := BitVec.ofNat 32 (2 * (4 * c.val + r.val) + 35)
def tc1WideC (r : Fin 4) : Word := BitVec.ofNat 32 (2 * r.val + 1)

/-- A state with these operands, otherwise as after reset. -/
def withA (l : List (Fin 16 × Word)) : State := l.foldl (fun s p => writeA p.1 p.2 s) State.reset

/-- Operands 1 to 16 in order. -/
def countingA : State := withA ((List.finRange 16).map fun i => (i, BitVec.ofNat 32 (i.val + 1)))

theorem test_tc1_legal : tableLegal 4 4 tc1HashK = true ∧ tableLegal 4 4 tc1WideK = true := by decide

/-- V-H1, V-H2, V-H3, V-H8, V-H15, V-H16. -/
theorem test_hash_vectors :
    hashNarrow 2 1 tc1HashK 1 (withA [(0, 1), (1, 2)]) = 0x0000000E ∧
    hashNarrow 4 1 tc1HashK 1 (withA [(0, 0xFFFFFFFF)]) = 0xFFFFFFFE ∧
    hashNarrow 3 1 tc1HashK 1 (withA [(0, 0x80000000)]) = 0x80000001 ∧
    hashNarrow 4 4 tc1HashK 1 countingA = 0x00000C39 ∧
    hashNarrow 2 1 tc1HashK 1 (withA [(0, 1), (1, 2), (2, 0xDEAD), (4, 5)]) = 0x0000000E ∧
    hashNarrow 2 1 tc1HashK 1 (withA [(0, 1), (1, 0x80000002)]) = 0x8000000E := by decide

/-- V-H7, V-H9, V-H14. -/
theorem test_hashwide_vectors :
    (lanes 2).map (hashWideLane 2 tc1WideK tc1WideC (withA [(0, 1), (1, 2), (4, 3), (5, 4)])) = [0xA5, 0x101] ∧
    (lanes 4).map (hashWideLane 4 tc1WideK tc1WideC countingA) = [0x5C5, 0x6C3, 0x7D1, 0x8EF] ∧
    (lanes 3).map (hashWideLane 3 tc1WideK tc1WideC (withA [(0, 1), (5, 1), (10, 1)])) = [0x24, 0x30, 0x3C] := by decide

/-! The generator. -/

/-- V-P7 to V-P10 and the inverse. -/
theorem test_xorshift32_vectors :
    xorshift32 0xFFFFFFFF = 0x0003E01F ∧ xorshift32 0x0003E01F = 0xFC07FDFF ∧ xorshift32 0x80000000 = 0x80084000 ∧
    xorshift32 0x12345678 = 0x87985AA5 ∧ xorshift32 0xDEADBEEF = 0x477D20B7 ∧
    xorshift32Inv 0x00042021 = 1 ∧ xorshift32Inv 0x510C4619 = 0x9E3779B9 := by decide

/-! Whole steps. `after k s` asks a question of the state that `k` steps lead to. -/

/-- The state after reset with these events at the port. -/
def atPortOf (l : List PortEvent) : State := { State.reset with pending := l }

/-- The answer of `q` on the state after `k` steps, if they go on. -/
def after {α : Type} (k : Nat) (l : List PortEvent) (q : State → α) : Option α :=
  match Host.Core.run Sys2Proof.core k (atPortOf l) with
  | .next t => some (q t)
  | _ => none

/-- P1: 65520 narrows to infinity, 0x33000001 is flushed, a NaN becomes quiet. -/
theorem test_program_P1_narrow :
    after 5 [wrA 0 0 0x3F800000, wrA 0 1 0x477FF000, wrA 0 2 0x33000001, wrA 0 3 0x7F800001, cmdWrite 0 0x31]
      (fun t => [readY 0 t, readY 1 t, readY 2 t, readY 3 t]) = some [0x3C00, 0x7C00, 0, 0x7E00] := by decide

/-- V-W22 and P5's first command: upper halves are ignored. -/
theorem test_step_widen : after 3 [wrA 0 0 0xFFFF3C00, wrA 0 1 0xFFC00001, cmdWrite 0 0x12]
    (fun t => [readY 0 t, readY 1 t, readY 2 t]) = some [0x3F800000, 0x33800000, 0] := by decide

/-- V-S17. -/
theorem test_step_sincos_nonfinite : after 3 [wrA 0 0 0x7F800000, wrA 0 1 0xFFC00001, cmdWrite 0 0x13]
    (fun t => (readY 0 t == 0x7FC00000) && (readY 1 t == 0x7FC00000) && (readY 4 t == 0x7FC00000) &&
      (readY 5 t == 0x7FC00000) && (readY 2 t == 0) && (readY 6 t == 0)) = some true := by decide

/-- P2's first half. -/
theorem test_step_seed_draw : after 3 [wrA 0 0 1, cmdWrite 0 6, cmdWrite 0 0x37]
    (fun t => (readY 0 t, readY 3 t, t.prng, t.lastcmd)) =
    some (0x00042021, 0x1255994F, 0x1255994F, 0x37) := by decide

/-- V-P5: draws before any seed. -/
theorem test_step_draw_from_reset : after 1 [cmdWrite 0 0x17] (fun t => (readY 0 t, readY 1 t, t.prng)) =
    some (0x510C4619, 0xE02E553E, 0xE02E553E) := by decide

/-- V-P4. -/
theorem test_step_seed_zero : after 1 [cmdWrite 0 6] (fun t => (t.prng, t.err)) = some (0x9E3779B9, false) := by decide

/-- V-D24 and V-D25: the first cause is kept, and a STATUS write clears it only with bit 0. -/
theorem test_step_sticky_error :
    after 5 [cmdWrite 0 4, cmdWrite 0 8, wrStatus 0 0xFFFFFFFE, rdStatus 0, wrStatus 0 1]
      (fun t => (t.replies.drop 1 |>.head?, t.lastcmd, t.err, t.cause)) =
    some (some (.readData 0 0x31), 8, false, 0) := by decide

/-- V-B1, V-B13: a register reads back; PRNG_STATE after reset. -/
theorem test_step_reads : after 3 [wrA 0 0 0x12345678, rdA 1 0, rdPrngState 1]
    (fun t => t.replies) = some [.readData 1 0x9E3779B9, .readData 1 0x12345678, .writeDone 0] := by decide

/-- V-B4 to V-B10: the bus errors. -/
theorem test_step_bus_errors :
    [(wordAccess 0 0x40 (.write 0)), (wordAccess 0 0x60 (.write 0)), (wordAccess 0 0x6C .read), (wordAccess 0 0xFC (.write 0)),
      (.access ⟨0, 0x00, .bytes 2, .read⟩), (.access ⟨0, 0x64, .bytes 1, .write 0⟩), (wordAccess 0 0x02 .read)].map
        (fun e => after 1 [e] (fun t => t.lastcmd)) = List.replicate 7 none := by decide

/-- P5: the block goes on after a bus error with nothing changed. -/
theorem test_serve_goes_on : (serve (serve (atPortOf [wordAccess 3 0x40 (.write 5), cmdWrite 3 7]))).replies =
    [.writeDone 3, .busError 3] := by decide

/-- Every table word is fetched and run as the first command after reset. -/
theorem test_fetch_runs : allCommands.all (fun i =>
    match step (State.reset.withFetchWord 32 (encode i).toNat) with
    | .next t => t.lastcmd == encode i && t.pending == []
    | _ => false) = true := by decide

/-- 30_encoding.md R80: mnemonics and pseudo-forms. -/
theorem test_assemble : assemble "HASH.3x2" = some 0x64 ∧ assemble "HASHWIDE.4" = some 0x35 ∧
    assemble "NEXTUINT" = some 0x07 ∧ assemble "HASH.1x1" = none := by decide

/-- The mnemonics name the commands apart, and there are 42 of them. -/
theorem test_mnemonics : (allCommands.map mnemonic).Nodup ∧ allCommands.length = 42 := by decide

/-! ## Witnesses: for each statement with hypotheses, values that meet them all. -/

theorem witness_IllegalWordsByCause : ∃ (w : Word) (op nf cf rsv : Nat), op = w.toNat % 16 ∧ nf = w.toNat / 16 % 4 ∧
    cf = w.toNat / 64 % 4 ∧ rsv = w.toNat / 256 := ⟨0x104, 4, 0, 0, 1, by decide⟩

theorem witness_OperandCountsFollowFields : decode 0x37 = .legal .nextuint_4 ∧ Instr.nextuint_4.operands = .lanes 4 ∧
    decode 0xF5 = .legal .hashwide_4x4 ∧ Instr.hashwide_4x4.operands = .matrix 4 4 ∧
    decode 0x06 = .legal .seed ∧ Instr.seed.operands = .nullary := by decide

theorem witness_StepRunsDecodedCommand : (atPortOf [cmdWrite 2 0x37]).pending = cmdWrite 2 0x37 :: [] ∧
    decode 0x37 = .legal .nextuint_4 := by decide

/-- One state with ERR = 0 and one with ERR = 1, each cause. -/
theorem witness_IllegalCommandEffect :
    (atPortOf [cmdWrite 0 8]).pending = cmdWrite 0 8 :: [] ∧ decode 8 = .illegal .reservedOpcode ∧ (atPortOf [cmdWrite 0 8]).err = false ∧
    (setStatus (true, 3) (atPortOf [cmdWrite 0 0x100])).pending = cmdWrite 0 0x100 :: [] ∧ decode 0x100 = .illegal .reservedField ∧
    (setStatus (true, 3) (atPortOf [cmdWrite 0 0x100])).err = true ∧ decode 4 = .illegal .illegalShape := by decide

theorem witness_ErrorRecordIsSticky : ∃ s t : State, s.err = true ∧
    (∀ e ∈ s.pending, e ≠ .reset ∧
      ∀ (acc : Access) (v : Word), e = .access acc → acc.offset = 0x68 → acc.op = .write v → v.toNat % 2 = 0) ∧
    Host.Core.run Sys2Proof.core 2 s = .next t := by
  refine ⟨setStatus (true, 3) (atPortOf [cmdWrite 0 8, wrStatus 0 2]), _, rfl, ?_, rfl⟩
  intro e he
  simp only [setStatus, atPortOf, List.mem_cons, List.not_mem_nil, or_false] at he
  obtain rfl | rfl := he
  · refine ⟨by decide, ?_⟩
    rintro acc v h ho -
    injection h with h
    rw [← h] at ho
    exact absurd ho (by decide)
  · refine ⟨by decide, ?_⟩
    rintro acc v h - hv
    injection h with h
    rw [← h] at hv
    injection hv with hv
    rw [← hv]
    decide

theorem witness_LastcmdIsOnlyARecord : (atPortOf [cmdWrite 1 0xFFFFFFFF]).pending = cmdWrite 1 0xFFFFFFFF :: [] ∧
    (atPortOf [rdCmd 1]).pending = rdCmd 1 :: [] ∧ ∃ t, exec .sincos_2 State.reset = .next t :=
  ⟨rfl, rfl, _, rfl⟩

theorem witness_NopChangesOnlyLastcmd : (atPortOf [cmdWrite 1 0]).pending = cmdWrite 1 0 :: [] := rfl

theorem witness_StepKeepsSoundState : soundState (atPortOf [cmdWrite 0 8]) ∧ ∃ t, step (atPortOf [cmdWrite 0 8]) = .next t :=
  ⟨by decide, _, rfl⟩

theorem witness_ResetSetsEveryRegister : (atPortOf [.reset]).pending = .reset :: [] := rfl

theorem witness_IdleBlockWaits : State.reset.pending = [] := rfl

theorem witness_F32tof16Result : (Instr.f32tof16_3, 3) ∈ f32tof16Forms := by decide

theorem witness_F16tof32Result : (Instr.f16tof32_3, 3) ∈ f16tof32Forms := by decide

theorem witness_NarrowNaN : isNaN32 0xFFC00001 = true := by decide

/-- A NaN, an infinity, a flushed word, a tie and the smallest word above the flush, each with its code. -/
theorem witness_NarrowRoundsToNearestEven :
    (isNaN32 0xFF800001 = true ∧ (f2h .flushBelowMinSubnormal 0xFF800001).toNat = 1 * 2 ^ 15 + 0x7E00) ∧
    (isInf32 0x7F800000 = true ∧ (f2h .flushBelowMinSubnormal 0x7F800000).toNat = 0 * 2 ^ 15 + 0x7C00) ∧
    (isFinite32 0x337FFFFF = true ∧ mag32 0x337FFFFF < 2 ^ 125 ∧
      (f2h .flushBelowMinSubnormal 0x337FFFFF).toNat = 0 * 2 ^ 15 + 0) ∧
    (isFinite32 0x33800000 = true ∧ 2 ^ 125 ≤ mag32 0x33800000 ∧
      (f2h .flushBelowMinSubnormal 0x33800000).toNat = 0 * 2 ^ 15 + 1) ∧
    (isFinite32 0x3F803000 = true ∧ gridDistance 0x3C02 0x3F803000 = gridDistance 0x3C01 0x3F803000 ∧
      (f2h .flushBelowMinSubnormal 0x3F803000).toNat = 0 * 2 ^ 15 + 0x3C02) := by decide

theorem witness_NarrowOverflowThreshold : isFinite32 0x477FEFFF = true ∧ 65504 * 2 ^ 149 < mag32 0x477FEFFF ∧
    mag32 0x477FEFFF < 65520 * 2 ^ 149 := by decide

theorem witness_WidenIsExact : isFinite16 0x7BFF = true ∧ isInf16 0xFC00 = true ∧ exp16 0x0001 = 0 ∧ frac16 0x0001 ≠ 0 := by
  decide

theorem witness_WidenKeepsNaNPayload : isNaN16 0x7C01 = true := by decide

theorem witness_HalfRoundTrip : isNaN16 0x03FF = false ∧ isNaN16 0x7C01 = true := by decide

theorem witness_FloatRoundTrip : isNaN32 0x7F800001 = true ∧
    (isFinite32 0x33000001 = true ∧ mag32 0x33000001 < 65520 * 2 ^ 149 ∧ mag32 0x33000001 < 2 ^ 125) ∧
    (isFinite32 0x477FEFFF = true ∧ mag32 0x477FEFFF < 65520 * 2 ^ 149 ∧ 2 ^ 125 ≤ mag32 0x477FEFFF) := by decide

theorem witness_SincosResult : (Instr.sincos_4, 4) ∈ sincosForms := by decide

theorem witness_SincosOfNonFinite : isNaN32 0x7F800001 = true ∧ isInf32 0xFF800000 = true := by decide

theorem witness_SincosFinite : isFinite32 0x7F7FFFFF = true := by decide

theorem witness_LanesAreIndependent : ∃ t t' : State, sincosForms ∈ [f32tof16Forms, f16tof32Forms, sincosForms] ∧
    (Instr.sincos_1, 1) ∈ sincosForms ∧ (Instr.sincos_4, 4) ∈ sincosForms ∧
    readA (laneA 0) (withA [(0, 7)]) = readA (laneA 3) (withA [(3, 7)]) ∧
    exec .sincos_1 (withA [(0, 7)]) = .next t ∧ exec .sincos_4 (withA [(3, 7)]) = .next t' :=
  ⟨_, _, by simp, by decide, by decide, by decide, rfl, rfl⟩

theorem witness_HashResult : (Instr.hash_2x1, 2, 1) ∈ hashForms ∧ (Instr.hash_4x4, 4, 4) ∈ hashForms := by decide

theorem witness_HashwideResult : (Instr.hashwide_2x1, 2, 1) ∈ hashwideForms ∧ (Instr.hashwide_4x4, 4, 4) ∈ hashwideForms := by
  decide

/-- A clear bit and a set bit. -/
theorem witness_HashSeesEveryBit : ∃ t t' u u' : State, (Instr.hash_2x1, 2, 1) ∈ hashForms ∧
    exec .hash_2x1 countingA = .next t ∧
    exec .hash_2x1 (writeA (elementA 1 0) (readA (elementA 1 0) countingA ^^^ BitVec.twoPow 32 31) countingA) = .next t' ∧
    (readA (elementA 1 0) countingA).getLsbD 31 = false ∧
    exec .hash_2x1 (writeA (elementA 1 0) (readA (elementA 1 0) countingA ^^^ BitVec.twoPow 32 1) countingA) = .next u ∧
    (readA (elementA 1 0) countingA).getLsbD 1 = true ∧ u' = u :=
  ⟨_, _, _, _, by decide, rfl, rfl, by decide, rfl, by decide, rfl⟩

theorem witness_HashwideSeesEveryBit : ∃ t t' : State, (Instr.hashwide_4x4, 4, 4) ∈ hashwideForms ∧
    exec .hashwide_4x4 countingA = .next t ∧
    exec .hashwide_4x4 (writeA (elementA 3 3) (readA (elementA 3 3) countingA ^^^ BitVec.twoPow 32 0) countingA) = .next t' :=
  ⟨_, _, by decide, rfl, rfl⟩

/-- Two states that agree on the shape and differ outside it, and two that agree in the low 8 bits only. -/
theorem witness_HashLowBits : ∃ t t' : State,
    (∀ c r : Fin 4, c.val < 1 → r.val < 2 → (readA (elementA r c) (withA [(0, 1), (5, 9)])).toNat % 2 ^ 32 =
      (readA (elementA r c) (withA [(0, 1)])).toNat % 2 ^ 32) ∧
    (∀ c r : Fin 4, c.val < 1 → r.val < 2 → (readA (elementA r c) (withA [(0, 0x101)])).toNat % 2 ^ 8 =
      (readA (elementA r c) (withA [(0, 1)])).toNat % 2 ^ 8) ∧
    exec .hash_2x1 (withA [(0, 1), (5, 9)]) = .next t ∧ exec .hash_2x1 (withA [(0, 1)]) = .next t' :=
  ⟨_, _, by decide, by decide, rfl, rfl⟩

theorem witness_NextuintResult : (Instr.nextuint_4, 4) ∈ nextuintForms := by decide

theorem witness_GeneratorHasFullPeriod : (1 : Word) ≠ 0 ∧ (0x80000000 : Word) ≠ 0 := by decide

theorem witness_DrawsAreNeverZeroOrRepeated : ∃ t, (Instr.nextuint_4, 4) ∈ nextuintForms ∧ soundState State.reset ∧
    exec .nextuint_4 State.reset = .next t := ⟨_, by decide, by decide, rfl⟩

/-- The states of repeated scalar draws from reset. -/
def scalarDraws (k : Nat) : State := (drawLanes 1)^[k] State.reset

theorem witness_VectorDrawEqualsScalarDraws : ∃ t, scalarDraws 0 = State.reset ∧
    (∀ k, k < 4 → exec .nextuint_1 (scalarDraws k) = .next (scalarDraws (k + 1))) ∧
    exec .nextuint_4 State.reset = .next t := by
  refine ⟨_, rfl, fun k _ => ?_, rfl⟩
  simp only [scalarDraws, Function.iterate_succ_apply']
  rfl

theorem witness_SeededDrawsAreReproducible : ∃ t t' : State,
    (∀ i ∈ [Instr.nextuint_2, .nextuint_1], ∃ n, (i, n) ∈ nextuintForms) ∧
    readA 0 (withA [(0, 5)]) = readA 0 (setPrng 77 (withA [(0, 5), (1, 1)])) ∧
    execAll [.seed, .nextuint_2, .nextuint_1] (withA [(0, 5)]) = .next t ∧
    execAll [.seed, .nextuint_2, .nextuint_1] (setPrng 77 (withA [(0, 5), (1, 1)])) = .next t' := by
  refine ⟨_, _, ?_, by decide, rfl, rfl⟩
  intro i hi
  simp only [List.mem_cons, List.not_mem_nil, or_false] at hi
  obtain rfl | rfl := hi
  · exact ⟨2, by decide⟩
  · exact ⟨1, by decide⟩

/-- Each kind of register at the first and the last of its offsets. -/
theorem witness_ReadsReturnRegisters :
    (0x3C : BitVec 8).toNat = 4 * (15 : Fin 16).val ∧ (0x40 : BitVec 8).toNat = 0x40 + 4 * (0 : Fin 8).val ∧
    (0x5C : BitVec 8).toNat = 0x40 + 4 * (7 : Fin 8).val ∧
    (atPortOf [wordAccess 1 0x5C .read]).pending = wordAccess 1 0x5C .read :: [] ∧
    (statusWord true 3).toNat = 16 * (3 : BitVec 4).toNat + true.toNat := by decide

theorem witness_WritesSetRegisters : (atPortOf [wrA 0 15 9]).pending = wrA 0 15 9 :: [] ∧
    (atPortOf [wrStatus 0 1]).pending = wrStatus 0 1 :: [] ∧ (1 : Word).toNat % 2 = 1 ∧
    (atPortOf [wrStatus 0 0xFFFFFFFE]).pending = wrStatus 0 0xFFFFFFFE :: [] ∧ (0xFFFFFFFE : Word).toNat % 2 = 0 ∧
    (atPortOf [cmdWrite 0 0x104]).pending = cmdWrite 0 0x104 :: [] := by decide

/-- The boundary offsets of the clauses: 0x5C and 0x60 written, 0x68 allowed, 0x6C unmapped. -/
theorem witness_BusErrorConditions :
    atPort (atPortOf [.access ⟨0, 0x5C, .bytes 4, .write 1⟩]) ⟨0, 0x5C, .bytes 4, .write 1⟩ [] ∧
    [(0x3C, false), (0x40, true), (0x5C, true), (0x60, true), (0x64, false), (0x68, false), (0x6C, true)].all (fun p =>
      (after 1 [wordAccess 0 p.1 (.write 1)] (fun _ => ())).isNone == p.2) = true := by decide

/-- An interleaving of two hosts' programs. -/
theorem witness_PortKeepsOrder :
    (∃ t, Host.Core.run Sys2Proof.core 2 (atPortOf [wrA 0 0 1, rdY 1 7, .reset]) = .next t) ∧
    ∃ program, interleaves program (atPortOf [wrA 0 0 1, rdY 1 7, .reset]).pending :=
  ⟨⟨_, rfl⟩, fun h => accessesOf h _, fun _ => rfl⟩

theorem witness_HostsAreIndistinguishable :
    (∃ t, Host.Core.run Sys2Proof.core 2 (atPortOf [wrA 0 0 1, rdY 1 7]) = .next t) ∧
    Host.Core.run Sys2Proof.core 2 (atPortOf [wrA 0 0 1, wordAccess 1 0x40 (.write 0)]) = .fault .busError :=
  ⟨⟨_, rfl⟩, rfl⟩

theorem witness_HashTablesMeetConstraints : ∃ rows cols : Nat, 2 ≤ rows ∧ rows ≤ 4 ∧ 1 ≤ cols ∧ cols ≤ 4 :=
  ⟨4, 4, by decide⟩

theorem witness_WindowSitsAtBlockBase : ∃ q q' : BusRequest, q.address = Config.blockBase + (0x64 : BitVec 8).toNat ∧
    Config.blockBase + 0x100 ≤ q'.address :=
  ⟨⟨0, Config.blockBase + 0x64, .bytes 4, .read⟩, ⟨0, Config.blockBase + 0x100, .bytes 4, .read⟩, by simp, by simp⟩

theorem witness_ReinterpretationIsIdentity :
    (atPortOf [wrA 0 2 0x80000000, rdA 1 2]).pending = wrA 0 2 0x80000000 :: rdA 1 2 :: [] := rfl

end Sys2Proof.Tests
end

/-! # A word access at the port, and what a command can see and change -/

namespace Sys2Proof.Machine

/-! ## A 4-byte access that waits first at the port (20_memory.md R53, R56, R57) -/

/-- A read of a mapped register: the access leaves the port and its host is given the register's value. -/
theorem step_of_wordRead {s : State} {host : Nat} {offset : BitVec 8} {r : WindowReg} {rest : List PortEvent}
    (hp : s.pending = wordAccess host offset .read :: rest) (hr : registerAt offset = some r) :
    step s = .next (respond (.readData host (windowRead r s)) (setPending rest s)) := by
  have hread : windowRead r (setPending rest s) = windowRead r s := by cases r <;> rfl
  simp [step, portStep, hp, wordAccess, performAccess, hr, hread]

/-- A write to a mapped register: the access leaves the port, the write is done, and then its host is answered. -/
theorem step_of_wordWrite {s : State} {host : Nat} {offset : BitVec 8} {v : Word} {r : WindowReg} {rest : List PortEvent}
    (hp : s.pending = wordAccess host offset (.write v) :: rest) (hr : registerAt offset = some r) :
    step s = respondAfter (.writeDone host) (windowWrite r v (setPending rest s)) := by
  simp [step, portStep, hp, wordAccess, performAccess, hr]

theorem registerAt_cmd : registerAt 0x64 = some .cmd := rfl

/-! ## Commands act on the units alone (10_state.md R26, 40_dispatch.md R92)

The units' registers are `A`, `Y` and `S`. What else the state holds (LASTCMD, STATUS, the port) is the record around
them. -/

/-- The units' registers of `s` inside the record of `b`. -/
def unitsOver (b s : State) : State := { b with a := s.a, y := s.y, prng := s.prng }

/-- `f` writes only `Y` and `S`, and what it writes does not depend on the record around the units. -/
structure ActsOnUnits (f : State → State) : Prop where
  frame : ∀ s, ∃ p y, f s = { s with prng := p, y := y }
  blind : ∀ b s, f (unitsOver b s) = unitsOver b (f s)

/-- A loop does not depend on the record when no pass through it does. -/
theorem foldl_unitsOver {ι : Type} {g : State → ι → State} (hg : ∀ b s i, g (unitsOver b s) i = unitsOver b (g s i))
    (l : List ι) (b s : State) : l.foldl g (unitsOver b s) = unitsOver b (l.foldl g s) :=
  List.foldl_hom (unitsOver b) fun s i => hg b s i

theorem writeLanes_unitsOver (n : Nat) (f : Fin 4 → Word) (b s : State) :
    writeLanes n f (unitsOver b s) = unitsOver b (writeLanes n f s) :=
  foldl_unitsOver (fun _ _ _ => rfl) _ b s

theorem writeLanePairs_unitsOver (n : Nat) (f : Fin 4 → Word × Word) (b s : State) :
    writeLanePairs n f (unitsOver b s) = unitsOver b (writeLanePairs n f s) :=
  foldl_unitsOver (fun _ _ _ => rfl) _ b s

/-- An operation that changes `Y` alone meets the frame of `ActsOnUnits` with `S` as it was. -/
theorem ActsOnUnits.of_yFrame {f : State → State} (hframe : ∀ s, ∃ y, f s = { s with y := y })
    (hblind : ∀ b s, f (unitsOver b s) = unitsOver b (f s)) : ActsOnUnits f where
  frame s := ⟨s.prng, hframe s⟩
  blind := hblind

theorem narrowLanes_actsOnUnits (n : Nat) : ActsOnUnits (narrowLanes n) :=
  .of_yFrame (narrowLanes_frame n) fun b s => writeLanes_unitsOver n _ b s

theorem widenLanes_actsOnUnits (n : Nat) : ActsOnUnits (widenLanes n) :=
  .of_yFrame (widenLanes_frame n) fun b s => writeLanes_unitsOver n _ b s

theorem sincosLanes_actsOnUnits (n : Nat) : ActsOnUnits (sincosLanes n) :=
  .of_yFrame (sincosLanes_frame n) fun b s => writeLanePairs_unitsOver n _ b s

theorem hashShape_actsOnUnits (rows cols : Nat) : ActsOnUnits (hashShape rows cols) :=
  .of_yFrame (hashShape_frame rows cols) fun _ _ => rfl

theorem hashwideShape_actsOnUnits (rows cols : Nat) : ActsOnUnits (hashwideShape rows cols) :=
  .of_yFrame (hashwideShape_frame rows cols) fun b s => writeLanes_unitsOver rows _ b s

theorem seedPrng_actsOnUnits : ActsOnUnits seedPrng where
  frame s := ⟨seedValue (readA 0 s), s.y, rfl⟩
  blind _ _ := rfl

theorem drawLanes_actsOnUnits (n : Nat) : ActsOnUnits (drawLanes n) where
  frame := drawLanes_frame n
  blind := foldl_unitsOver (fun _ _ _ => rfl) _

/-- Every command completes from every state, and acts on the units alone. -/
theorem exec_actsOnUnits (i : Instr) : ∃ f, ActsOnUnits f ∧ ∀ s, exec i s = .next (f s) := by
  cases i with
  | nop => exact ⟨id, ⟨fun s => ⟨s.prng, s.y, rfl⟩, fun _ _ => rfl⟩, fun _ => rfl⟩
  | f32tof16_1 | f32tof16_2 | f32tof16_3 | f32tof16_4 => exact ⟨_, narrowLanes_actsOnUnits _, fun _ => rfl⟩
  | f16tof32_1 | f16tof32_2 | f16tof32_3 | f16tof32_4 => exact ⟨_, widenLanes_actsOnUnits _, fun _ => rfl⟩
  | sincos_1 | sincos_2 | sincos_3 | sincos_4 => exact ⟨_, sincosLanes_actsOnUnits _, fun _ => rfl⟩
  | hash_2x1 | hash_3x1 | hash_4x1 | hash_2x2 | hash_3x2 | hash_4x2
  | hash_2x3 | hash_3x3 | hash_4x3 | hash_2x4 | hash_3x4 | hash_4x4 =>
    exact ⟨_, hashShape_actsOnUnits _ _, fun _ => rfl⟩
  | hashwide_2x1 | hashwide_3x1 | hashwide_4x1 | hashwide_2x2 | hashwide_3x2 | hashwide_4x2
  | hashwide_2x3 | hashwide_3x3 | hashwide_4x3 | hashwide_2x4 | hashwide_3x4 | hashwide_4x4 =>
    exact ⟨_, hashwideShape_actsOnUnits _ _, fun _ => rfl⟩
  | seed => exact ⟨_, seedPrng_actsOnUnits, fun _ => rfl⟩
  | nextuint_1 | nextuint_2 | nextuint_3 | nextuint_4 => exact ⟨_, drawLanes_actsOnUnits _, fun _ => rfl⟩

/-! ## LASTCMD -/

/-- Running a command word, legal or not, completes and leaves LASTCMD alone. -/
theorem runCommandWord_keeps_lastcmd (w : Word) (s : State) :
    ∃ t, runCommandWord w s = .next t ∧ t.lastcmd = s.lastcmd := by
  obtain ⟨i, -, hrun⟩ | ⟨c, -, hrun⟩ := runCommandWord_eq w s
  · obtain ⟨f, hf, hexec⟩ := exec_actsOnUnits i
    obtain ⟨p, y, hfs⟩ := hf.frame s
    exact ⟨f s, hrun.trans (hexec s), by rw [hfs]⟩
  · exact ⟨_, hrun, raiseIllegalCommand_lastcmd c s⟩

/-- A command run with another LASTCMD does the same, and LASTCMD after it is the one it was run with. -/
theorem exec_setLastcmd {i : Instr} {s t : State} (h : exec i s = .next t) (w : Word) :
    exec i (setLastcmd w s) = .next (setLastcmd w t) := by
  obtain ⟨f, hf, hexec⟩ := exec_actsOnUnits i
  obtain rfl : f s = t := by simpa [hexec] using h
  obtain ⟨p, y, hfs⟩ := hf.frame s
  calc exec i (setLastcmd w s)
      = .next (f (unitsOver (setLastcmd w s) s)) := hexec _
    _ = .next (unitsOver (setLastcmd w s) (f s)) := by rw [hf.blind]
    _ = .next (setLastcmd w (f s)) := by rw [hfs]; rfl

/-- Settles O10: the write and the read by the port's rules for CMD, the rest since commands act on the units alone. -/
theorem lastcmdIsOnlyARecord : Obligations.LastcmdIsOnlyARecord := by
  refine ⟨fun s host w rest hp => ?write, fun s host rest hp => ?read, fun i s t w h => ?command⟩
  case write =>
    obtain ⟨t, hrun, hlast⟩ := runCommandWord_keeps_lastcmd w (setLastcmd w (setPending rest s))
    have hresp : respondAfter (.writeDone host) (runCommandWord w (setLastcmd w (setPending rest s))) =
        .next (respond (.writeDone host) t) := by rw [hrun]; rfl
    exact ⟨_, (step_of_wordWrite hp registerAt_cmd).trans hresp, hlast, hresp⟩
  case read => exact step_of_wordRead hp registerAt_cmd
  case command => exact exec_setLastcmd h w

end Sys2Proof.Machine

/-! # The register map: what a legal read returns and a legal write sets -/

namespace Sys2Proof.Machine

/-! ## The register at each offset (20_memory.md R53) -/

theorem registerAt_a {offset : BitVec 8} {i : Fin 16} (h : offset.toNat = 4 * i.val) :
    registerAt offset = some (.a i) := by
  have haligned : 4 * i.val % 4 = 0 := Nat.mul_mod_right 4 i
  have hrange : 4 * i.val < 0x40 := by omega
  have hindex : 4 * i.val / 4 = i.val := by omega
  simp [registerAt, h, haligned, hrange, hindex]

theorem registerAt_y {offset : BitVec 8} {j : Fin 8} (h : offset.toNat = 0x40 + 4 * j.val) :
    registerAt offset = some (.y j) := by
  have haligned : (0x40 + 4 * j.val) % 4 = 0 := by omega
  have hrange : 0x40 + 4 * j.val < 0x60 := by omega
  simp [registerAt, h, haligned, hrange]

theorem registerAt_prngState : registerAt 0x60 = some .prngState := rfl

theorem registerAt_status : registerAt 0x68 = some .status := rfl

/-! ## STATUS as a word (20_memory.md R56, R57) -/

/-- The fields of the STATUS word do not overlap, so its value is their sum. -/
theorem statusWord_toNat (err : Bool) (cause : BitVec 4) :
    (statusWord err cause).toNat = 16 * cause.toNat + err.toNat := by
  have hcause : cause.toNat < 2 ^ 4 := cause.isLt
  have herr : err.toNat < 2 ^ 4 := lt_of_le_of_lt (Bool.toNat_le err) (by decide)
  have hcauseFits : cause.toNat % 2 ^ 32 = cause.toNat := by omega
  have herrFits : err.toNat % 2 ^ 32 = err.toNat := by omega
  have hshiftFits : cause.toNat <<< 4 % 2 ^ 32 = cause.toNat <<< 4 := by rw [Nat.shiftLeft_eq]; omega
  calc (statusWord err cause).toNat
      = cause.toNat <<< 4 ||| err.toNat := by
        simp only [statusWord, BitVec.toNat_or, BitVec.toNat_shiftLeft, BitVec.toNat_setWidth, BitVec.toNat_ofBool,
          hcauseFits, herrFits, hshiftFits]
    _ = cause.toNat <<< 4 + err.toNat := (Nat.shiftLeft_add_eq_or_of_lt herr _).symm
    _ = 16 * cause.toNat + err.toNat := by rw [Nat.shiftLeft_eq]; omega

theorem getLsbD_zero_iff_odd (v : Word) : v.getLsbD 0 = true ↔ v.toNat % 2 = 1 := by
  simp [BitVec.getLsbD, Nat.testBit_zero]

theorem writeStatus_of_odd {v : Word} (hv : v.toNat % 2 = 1) (s : State) :
    writeStatus v s = { s with err := false, cause := 0 } := by
  rw [writeStatus, clearByWrite, if_pos ((getLsbD_zero_iff_odd v).2 hv)]; rfl

theorem writeStatus_of_even {v : Word} (hv : v.toNat % 2 = 0) (s : State) : writeStatus v s = s := by
  have hbit : ¬ v.getLsbD 0 = true := by rw [getLsbD_zero_iff_odd]; omega
  rw [writeStatus, clearByWrite, if_neg hbit]; rfl

/-! ## The settled statements -/

/-- Settles O46: each offset names its register, and a read of a register answers its value. -/
theorem readsReturnRegisters : Obligations.ReadsReturnRegisters := by
  intro s host rest offset v hp hreg
  have hread : ∃ r, registerAt offset = some r ∧ windowRead r s = v := by
    obtain ⟨i, ho, rfl⟩ | ⟨j, ho, rfl⟩ | ⟨ho, rfl⟩ | ⟨ho, rfl⟩ | ⟨ho, hv⟩ := hreg
    · exact ⟨.a i, registerAt_a ho, rfl⟩
    · exact ⟨.y j, registerAt_y ho, rfl⟩
    · obtain rfl : offset = 0x60 := BitVec.eq_of_toNat_eq ho
      exact ⟨.prngState, registerAt_prngState, rfl⟩
    · obtain rfl : offset = 0x64 := BitVec.eq_of_toNat_eq ho
      exact ⟨.cmd, registerAt_cmd, rfl⟩
    · obtain rfl : offset = 0x68 := BitVec.eq_of_toNat_eq ho
      exact ⟨.status, registerAt_status, BitVec.eq_of_toNat_eq ((statusWord_toNat _ _).trans hv.symm)⟩
  obtain ⟨r, hr, rfl⟩ := hread
  exact step_of_wordRead hp hr

/-- Settles O47: each write by the port's rule for a write, with what `writeA` and `writeStatus` do. -/
theorem writesSetRegisters : Obligations.WritesSetRegisters := by
  refine fun s host rest v => ⟨fun i hp => ?operand, fun hp => ⟨fun hodd => ?clear, fun heven => ?keep⟩, fun hp => ?command⟩
  case operand =>
    have hoffset : (BitVec.ofNat 8 (4 * i.val)).toNat = 4 * i.val := by
      rw [BitVec.toNat_ofNat]; omega
    refine ⟨_, step_of_wordWrite hp (registerAt_a hoffset), fun j => ?_, rfl⟩
    simp [readA_writeA, eq_comm]
  case clear =>
    have hstep := step_of_wordWrite hp registerAt_status
    rwa [windowWrite, writeStatus_of_odd hodd] at hstep
  case keep =>
    have hstep := step_of_wordWrite hp registerAt_status
    rwa [windowWrite, writeStatus_of_even heven] at hstep
  case command => exact step_of_wordWrite hp registerAt_cmd

end Sys2Proof.Machine

/-! # The decoder: what it answers for each word (30_encoding.md R75 to R77, R79) -/

namespace Sys2Proof

/-! ## The fields of a word as numbers (30_encoding.md R71) -/

@[simp] theorem commandFields_op_toNat (w : Word) : (commandFields w).op.toNat = w.toNat % 16 := by
  simp [commandFields]

@[simp] theorem commandFields_nf_toNat (w : Word) : (commandFields w).nf.toNat = w.toNat / 16 % 4 := by
  simp [commandFields, Nat.shiftRight_eq_div_pow]

@[simp] theorem commandFields_cf_toNat (w : Word) : (commandFields w).cf.toNat = w.toNat / 64 % 4 := by
  simp [commandFields, Nat.shiftRight_eq_div_pow]

/-- RSV reaches to the word's top bit, so nothing is cut off above it. -/
@[simp] theorem commandFields_rsv_toNat (w : Word) : (commandFields w).rsv.toNat = w.toNat / 256 := by
  have hfits : w.toNat / 256 < 2 ^ 24 := by omega
  simpa [commandFields, Nat.shiftRight_eq_div_pow] using hfits

theorem opTakesShape_iff (op : BitVec 4) : opTakesShape op = true ↔ op.toNat = 4 ∨ op.toNat = 5 := by
  simp [opTakesShape, BitVec.toNat_eq]

/-! ## The decoder's answers, one case for each cause -/

/-- A field that must be 0 for the word's opcode is not 0 (30_encoding.md R76). -/
def CommandFields.setsReservedField (f : CommandFields) : Prop :=
  f.rsv ≠ 0 ∨ (f.cf ≠ 0 ∧ opTakesShape f.op = false) ∨ (f.nf ≠ 0 ∧ (f.op = 0 ∨ f.op = 6))

/-- The fields ask HASH or HASHWIDE for a shape of one row (30_encoding.md R77). -/
def CommandFields.asksOneRow (f : CommandFields) : Prop := f.nf = 0 ∧ opTakesShape f.op = true

theorem setsReservedField_commandFields_iff (w : Word) : (commandFields w).setsReservedField ↔
    w.toNat / 256 ≠ 0 ∨ (w.toNat / 64 % 4 ≠ 0 ∧ w.toNat % 16 ≠ 4 ∧ w.toNat % 16 ≠ 5) ∨
      (w.toNat / 16 % 4 ≠ 0 ∧ (w.toNat % 16 = 0 ∨ w.toNat % 16 = 6)) := by
  simp [CommandFields.setsReservedField, ← Bool.not_eq_true, opTakesShape_iff, BitVec.toNat_eq]

theorem asksOneRow_commandFields_iff (w : Word) : (commandFields w).asksOneRow ↔
    w.toNat / 16 % 4 = 0 ∧ (w.toNat % 16 = 4 ∨ w.toNat % 16 = 5) := by
  simp [CommandFields.asksOneRow, opTakesShape_iff, BitVec.toNat_eq]

/-- Everything `decode` does: the causes in their order of priority (60_exceptions.md R202), then the legal words. -/
theorem decode_cases (w : Word) :
    (8 ≤ (commandFields w).op.toNat ∧ decode w = .illegal .reservedOpcode) ∨
    (¬ 8 ≤ (commandFields w).op.toNat ∧ (commandFields w).setsReservedField ∧ decode w = .illegal .reservedField) ∨
    (¬ 8 ≤ (commandFields w).op.toNat ∧ ¬ (commandFields w).setsReservedField ∧ (commandFields w).asksOneRow ∧
      decode w = .illegal .illegalShape) ∨
    (¬ 8 ≤ (commandFields w).op.toNat ∧ ¬ (commandFields w).setsReservedField ∧ ¬ (commandFields w).asksOneRow ∧
      decode w = .legal (selectCommand (commandFields w))) := by
  unfold decode
  by_cases hop : 8 ≤ (commandFields w).op.toNat
  · exact .inl ⟨hop, if_pos hop⟩
  by_cases hrsv : (commandFields w).rsv ≠ 0
  · exact .inr (.inl ⟨hop, .inl hrsv, by simp only [if_neg hop, if_pos hrsv]⟩)
  by_cases hcf : (commandFields w).cf ≠ 0 ∧ opTakesShape (commandFields w).op = false
  · exact .inr (.inl ⟨hop, .inr (.inl hcf), by simp only [if_neg hop, if_neg hrsv, if_pos hcf]⟩)
  by_cases hnf : (commandFields w).nf ≠ 0 ∧ ((commandFields w).op = 0 ∨ (commandFields w).op = 6)
  · exact .inr (.inl ⟨hop, .inr (.inr hnf), by simp only [if_neg hop, if_neg hrsv, if_neg hcf, if_pos hnf]⟩)
  have hres : ¬ (commandFields w).setsReservedField := not_or.2 ⟨hrsv, not_or.2 ⟨hcf, hnf⟩⟩
  simp only [if_neg hop, if_neg hrsv, if_neg hcf, if_neg hnf]
  by_cases hrow : (commandFields w).asksOneRow
  · exact .inr (.inr (.inl ⟨hop, hres, hrow, if_pos hrow⟩))
  · exact .inr (.inr (.inr ⟨hop, hres, hrow, if_neg hrow⟩))

end Sys2Proof

namespace Sys2Proof.Machine

/-- Settles O3: each case of the decoder, with its tests read as arithmetic, decides all three equivalences. -/
theorem illegalWordsByCause : Obligations.IllegalWordsByCause := by
  rintro w op nf cf rsv rfl rfl rfl rfl
  have hcases := decode_cases w
  simp only [setsReservedField_commandFields_iff, asksOneRow_commandFields_iff, commandFields_op_toNat] at hcases
  obtain ⟨hop, hdec⟩ | ⟨hop, hres, hdec⟩ | ⟨hop, hres, hrow, hdec⟩ | ⟨hop, hres, hrow, hdec⟩ := hcases
  all_goals simp only [hdec, Decoded.illegal.injEq, reduceCtorEq, true_iff, false_iff]
  all_goals omega

end Sys2Proof.Machine

/-! # What a command leaves unchanged, and NOP (40_dispatch.md R92, R94) -/

namespace Sys2Proof.Machine

/-! ## The result registers that a lane loop names -/

theorem mem_lowY_lanes (n : Nat) (j : Fin 8) : j ∈ (lanes n).map lowY ↔ j.val < 4 ∧ j.val < n := by
  constructor
  · intro hj
    obtain ⟨i, hi, rfl⟩ := List.mem_map.1 hj
    exact ⟨i.isLt, (mem_lanes n i).1 hi⟩
  · rintro ⟨hlow, hn⟩
    exact List.mem_map.2 ⟨⟨j.val, hlow⟩, (mem_lanes n _).2 hn, rfl⟩

/-- The result file is the low half and the high half, a register of each for each lane. -/
theorem eq_lowY_or_eq_highY (j : Fin 8) : ∃ i, j = lowY i ∨ j = highY i := by
  by_cases hlow : j.val < 4
  · exact ⟨⟨j.val, hlow⟩, .inl rfl⟩
  · refine ⟨⟨j.val - 4, by omega⟩, .inr (Fin.ext ?_)⟩
    simp only [highY]
    omega

theorem readY_writeLanes_of_notMem {n : Nat} {j : Fin 8} (hj : j ∉ (lanes n).map lowY) (f : Fin 4 → Word) (s : State) :
    readY j (writeLanes n f s) = readY j s := by
  rw [readY_writeLanes, dif_neg (mt (mem_lowY_lanes n j).2 hj)]

theorem readY_writeLanePairs_of_notMem {n : Nat} {j : Fin 8}
    (hj : j ∉ (lanes n).map lowY ++ (lanes n).map highY) (f : Fin 4 → Word × Word) (s : State) :
    readY j (writeLanePairs n f s) = readY j s := by
  obtain ⟨hlow, hhigh⟩ := not_or.1 (mt List.mem_append.2 hj)
  obtain ⟨i, hi⟩ := eq_lowY_or_eq_highY j
  obtain ⟨hreadLow, hreadHigh⟩ := readY_writeLanePairs n f s i
  obtain rfl | rfl := hi
  · have hi : ¬ i.val < n := fun hi => hlow (List.mem_map_of_mem ((mem_lanes n i).2 hi))
    rw [hreadLow, if_neg hi]
  · have hi : ¬ i.val < n := fun hi => hhigh (List.mem_map_of_mem ((mem_lanes n i).2 hi))
    rw [hreadHigh, if_neg hi]

theorem readY_drawLanes_of_notMem {n : Nat} {j : Fin 8} (hj : j ∉ (lanes n).map lowY) (s : State) :
    readY j (drawLanes n s) = readY j s := by
  rw [readY_drawLanes, if_neg (mt (mem_lowY_lanes n j).2 hj)]

theorem readY_hashShape_of_notMem {rows cols : Nat} {j : Fin 8} (hj : j ∉ [0]) (s : State) :
    readY j (hashShape rows cols s) = readY j s := by
  rw [readY_hashShape, if_neg fun h => hj (List.mem_singleton.2 h.symm)]

/-! ## The frame of a command, a clause at a time (40_dispatch.md R92) -/

theorem exec_commandFrame {i : Instr} {s t : State} (h : exec i s = .next t) : commandFrame s t := by
  obtain ⟨f, hf, hexec⟩ := exec_actsOnUnits i
  obtain rfl : f s = t := by simpa [hexec] using h
  obtain ⟨p, y, hfs⟩ := hf.frame s
  rw [hfs]
  exact ⟨rfl, rfl, rfl, rfl, rfl, rfl⟩

/-- A command changes no result register that its rule does not name: family by family, `namedResults` is the list of
the registers that the family's loop writes. -/
theorem exec_keeps_unnamed {i : Instr} {s t : State} (h : exec i s = .next t) {j : Fin 8} (hj : j ∉ namedResults i) :
    readY j t = readY j s := by
  cases i with
  | nop | seed => cases h; rfl
  | f32tof16_1 | f32tof16_2 | f32tof16_3 | f32tof16_4
  | f16tof32_1 | f16tof32_2 | f16tof32_3 | f16tof32_4
  | hashwide_2x1 | hashwide_3x1 | hashwide_4x1 | hashwide_2x2 | hashwide_3x2 | hashwide_4x2
  | hashwide_2x3 | hashwide_3x3 | hashwide_4x3 | hashwide_2x4 | hashwide_3x4 | hashwide_4x4 =>
    cases h; exact readY_writeLanes_of_notMem hj _ s
  | sincos_1 | sincos_2 | sincos_3 | sincos_4 => cases h; exact readY_writeLanePairs_of_notMem hj _ s
  | hash_2x1 | hash_3x1 | hash_4x1 | hash_2x2 | hash_3x2 | hash_4x2
  | hash_2x3 | hash_3x3 | hash_4x3 | hash_2x4 | hash_3x4 | hash_4x4 =>
    cases h; exact readY_hashShape_of_notMem hj s
  | nextuint_1 | nextuint_2 | nextuint_3 | nextuint_4 => cases h; exact readY_drawLanes_of_notMem hj s

theorem prng_eq_of_yFrame {s t : State} (h : ∃ y, t = { s with y := y }) : t.prng = s.prng := by
  obtain ⟨y, rfl⟩ := h
  rfl

/-- Only SEED and NEXTUINT change the generator's state (10_state.md R24). -/
theorem exec_keeps_prng {i : Instr} {s t : State} (h : exec i s = .next t) (hseed : i ≠ .seed)
    (hdraw : ∀ n, (i, n) ∉ nextuintForms) : t.prng = s.prng := by
  cases i with
  | nop => cases h; rfl
  | f32tof16_1 | f32tof16_2 | f32tof16_3 | f32tof16_4 => cases h; exact prng_eq_of_yFrame (narrowLanes_frame _ s)
  | f16tof32_1 | f16tof32_2 | f16tof32_3 | f16tof32_4 => cases h; exact prng_eq_of_yFrame (widenLanes_frame _ s)
  | sincos_1 | sincos_2 | sincos_3 | sincos_4 => cases h; exact prng_eq_of_yFrame (sincosLanes_frame _ s)
  | hash_2x1 | hash_3x1 | hash_4x1 | hash_2x2 | hash_3x2 | hash_4x2
  | hash_2x3 | hash_3x3 | hash_4x3 | hash_2x4 | hash_3x4 | hash_4x4 =>
    cases h; exact prng_eq_of_yFrame (hashShape_frame _ _ s)
  | hashwide_2x1 | hashwide_3x1 | hashwide_4x1 | hashwide_2x2 | hashwide_3x2 | hashwide_4x2
  | hashwide_2x3 | hashwide_3x3 | hashwide_4x3 | hashwide_2x4 | hashwide_3x4 | hashwide_4x4 =>
    cases h; exact prng_eq_of_yFrame (hashwideShape_frame _ _ s)
  | seed => exact absurd rfl hseed
  | nextuint_1 => exact absurd (by decide) (hdraw 1)
  | nextuint_2 => exact absurd (by decide) (hdraw 2)
  | nextuint_3 => exact absurd (by decide) (hdraw 3)
  | nextuint_4 => exact absurd (by decide) (hdraw 4)

/-- Settles O7: every command completes since it acts on the units alone, and each clause is its own frame lemma. -/
theorem legalCommandFrame : Obligations.LegalCommandFrame := by
  intro i s
  obtain ⟨f, -, hexec⟩ := exec_actsOnUnits i
  exact ⟨f s, hexec s, exec_commandFrame (hexec s), fun _ => exec_keeps_unnamed (hexec s), exec_keeps_prng (hexec s)⟩

end Sys2Proof.Machine

/-! ## The word of NOP -/

namespace Sys2Proof

/-- The forms of a lane command share its opcode, so the lane field does not change the opcode. -/
theorem laneForm_op {nf : BitVec 2} {one two three four : Instr} {op : Nat}
    (h1 : (encodingFields one).op.toNat = op) (h2 : (encodingFields two).op.toNat = op)
    (h3 : (encodingFields three).op.toNat = op) (h4 : (encodingFields four).op.toNat = op) :
    (encodingFields (laneForm nf one two three four)).op.toNat = op := by
  unfold laneForm
  split <;> assumption

theorem rowForm_op {nf : BitVec 2} {two three four : Instr} {op : Nat} (h2 : (encodingFields two).op.toNat = op)
    (h3 : (encodingFields three).op.toNat = op) (h4 : (encodingFields four).op.toNat = op) :
    (encodingFields (rowForm nf two three four)).op.toNat = op := by
  unfold rowForm
  split <;> assumption

theorem hashForm_op (nf cf : BitVec 2) : (encodingFields (hashForm nf cf)).op.toNat = 4 := by
  unfold hashForm
  split <;> exact rowForm_op rfl rfl rfl

theorem hashwideForm_op (nf cf : BitVec 2) : (encodingFields (hashwideForm nf cf)).op.toNat = 5 := by
  unfold hashwideForm
  split <;> exact rowForm_op rfl rfl rfl

/-- The command selected for an assigned opcode is one of that opcode (30_encoding.md R73). -/
theorem selectCommand_op {f : CommandFields} (hop : f.op.toNat < 8) :
    (encodingFields (selectCommand f)).op.toNat = f.op.toNat := by
  obtain h | h | h | h | h | h | h | h : f.op.toNat = 0 ∨ f.op.toNat = 1 ∨ f.op.toNat = 2 ∨ f.op.toNat = 3 ∨
      f.op.toNat = 4 ∨ f.op.toNat = 5 ∨ f.op.toNat = 6 ∨ f.op.toNat = 7 := by omega
  all_goals simp only [selectCommand, h]
  · rfl
  · exact laneForm_op rfl rfl rfl rfl
  · exact laneForm_op rfl rfl rfl rfl
  · exact laneForm_op rfl rfl rfl rfl
  · exact hashForm_op f.nf f.cf
  · exact hashwideForm_op f.nf f.cf
  · rfl
  · exact laneForm_op rfl rfl rfl rfl

theorem decode_zero : decode 0 = .legal .nop := rfl

/-- A word that decodes to a command has that command's opcode, and no reserved field of it is set. -/
theorem decode_legal {w : Word} {i : Instr} (h : decode w = .legal i) :
    (commandFields w).op.toNat = (encodingFields i).op.toNat ∧ ¬ (commandFields w).setsReservedField := by
  obtain ⟨-, hdec⟩ | ⟨-, -, hdec⟩ | ⟨-, -, -, hdec⟩ | ⟨hop, hres, -, hdec⟩ := decode_cases w
  case inr.inr.inr =>
    obtain rfl : selectCommand (commandFields w) = i := Decoded.legal.inj (hdec.symm.trans h)
    exact ⟨(selectCommand_op (not_le.1 hop)).symm, hres⟩
  all_goals exact absurd (hdec.symm.trans h) (by simp)

/-- NOP has opcode 0 and every other field of its word is reserved, so 0 is its one word (30_encoding.md R73, R76). -/
theorem decode_eq_nop_iff (w : Word) : decode w = .legal .nop ↔ w = 0 := by
  constructor
  · intro h
    obtain ⟨hop, hres⟩ := decode_legal h
    have hop : w.toNat % 16 = 0 := (commandFields_op_toNat w).symm.trans hop
    rw [setsReservedField_commandFields_iff] at hres
    apply BitVec.eq_of_toNat_eq
    change w.toNat = 0
    omega
  · rintro rfl
    exact decode_zero

end Sys2Proof

namespace Sys2Proof.Machine

theorem runCommandWord_of_legal {w : Word} {i : Instr} (h : decode w = .legal i) (s : State) :
    runCommandWord w s = exec i s := by
  simp only [runCommandWord, h]

/-- A CMD write of a legal word: LASTCMD takes the word, the command runs, and then the host is answered. -/
theorem step_of_legalCmdWrite {s : State} {host : Nat} {w : Word} {rest : List PortEvent} {i : Instr}
    (hp : s.pending = cmdWrite host w :: rest) (h : decode w = .legal i) :
    step s = respondAfter (.writeDone host) (exec i (setLastcmd w (setPending rest s))) := by
  rw [step_of_wordWrite hp registerAt_cmd, windowWrite, runCommandWord_of_legal h]

/-- NOP answers the state it was given (40_dispatch.md R94). -/
theorem exec_nop (s : State) : exec .nop s = .next s := rfl

/-- Settles O11: the one word of NOP is 0, and its CMD write runs a command without an effect. -/
theorem nopChangesOnlyLastcmd : Obligations.NopChangesOnlyLastcmd := by
  refine ⟨decode_eq_nop_iff, exec_nop, fun s host rest hp => ?_⟩
  rw [step_of_legalCmdWrite hp decode_zero, exec_nop]
  rfl

end Sys2Proof.Machine

/-! # The float formats: fields as numbers, and the words that the codec packs -/

namespace Sys2Proof.Machine

/-! ## The fields of a word and of a half as numbers (00_scope.md R12) -/

@[simp] theorem sign32_toNat (a : Word) : (sign32 a).toNat = a.toNat / 2 ^ 31 := by
  have hfits : a.toNat / 2 ^ 31 < 2 := by omega
  simpa [sign32, Nat.shiftRight_eq_div_pow] using hfits

@[simp] theorem exp32_toNat (a : Word) : (exp32 a).toNat = a.toNat / 2 ^ 23 % 256 := by
  simp [exp32, Nat.shiftRight_eq_div_pow]

@[simp] theorem frac32_toNat (a : Word) : (frac32 a).toNat = a.toNat % 2 ^ 23 := by
  simp [frac32]

@[simp] theorem sign16_toNat (h : Half) : (sign16 h).toNat = h.toNat / 2 ^ 15 := by
  have hfits : h.toNat / 2 ^ 15 < 2 := by omega
  simpa [sign16, Nat.shiftRight_eq_div_pow] using hfits

@[simp] theorem exp16_toNat (h : Half) : (exp16 h).toNat = h.toNat / 2 ^ 10 % 32 := by
  simp [exp16, Nat.shiftRight_eq_div_pow]

@[simp] theorem frac16_toNat (h : Half) : (frac16 h).toNat = h.toNat % 2 ^ 10 := by
  simp [frac16]

/-! ## The classes as tests on the numbers of the fields (00_scope.md R12) -/

theorem isNaN32_iff (a : Word) : isNaN32 a = true ↔ (exp32 a).toNat = 0xFF ∧ (frac32 a).toNat ≠ 0 := by
  simp [isNaN32, BitVec.toNat_eq]

theorem isInf32_iff (a : Word) : isInf32 a = true ↔ (exp32 a).toNat = 0xFF ∧ (frac32 a).toNat = 0 := by
  simp [isInf32, BitVec.toNat_eq]

theorem isFinite32_iff (a : Word) : isFinite32 a = true ↔ (exp32 a).toNat ≠ 0xFF := by
  simp [isFinite32, BitVec.toNat_eq]

theorem isInf16_iff (h : Half) : isInf16 h = true ↔ (exp16 h).toNat = 0x1F ∧ (frac16 h).toNat = 0 := by
  simp [isInf16, BitVec.toNat_eq]

theorem isFinite16_iff (h : Half) : isFinite16 h = true ↔ (exp16 h).toNat ≠ 0x1F := by
  simp [isFinite16, BitVec.toNat_eq]

/-! ## Magnitudes (41_half_codec.md R100, R101) -/

theorem mag32_of_exp_zero {a : Word} (he : (exp32 a).toNat = 0) : mag32 a = (frac32 a).toNat := by
  have he : exp32 a = 0 := BitVec.eq_of_toNat_eq he
  rw [mag32, if_pos he]

theorem mag32_of_exp_ne_zero {a : Word} (he : (exp32 a).toNat ≠ 0) :
    mag32 a = (2 ^ 23 + (frac32 a).toNat) * 2 ^ ((exp32 a).toNat - 1) := by
  have he : exp32 a ≠ 0 := fun h => he (by rw [h]; rfl)
  rw [mag32, if_neg he]

theorem mag16_of_exp_zero {h : Half} (he : (exp16 h).toNat = 0) : mag16 h = (frac16 h).toNat := by
  have he : exp16 h = 0 := BitVec.eq_of_toNat_eq he
  rw [mag16, if_pos he]

theorem mag16_of_exp_ne_zero {h : Half} (he : (exp16 h).toNat ≠ 0) :
    mag16 h = (1024 + (frac16 h).toNat) * 2 ^ ((exp16 h).toNat - 1) := by
  have he : exp16 h ≠ 0 := fun h0 => he (by rw [h0]; rfl)
  rw [mag16, if_neg he]

/-- The words of magnitude 2^-24 and more are those whose exponent field is at least 103. -/
theorem two_pow_125_le_mag32_iff (a : Word) : 2 ^ 125 ≤ mag32 a ↔ 103 ≤ (exp32 a).toNat := by
  have hfrac : (frac32 a).toNat < 2 ^ 23 := (frac32 a).isLt
  by_cases hzero : (exp32 a).toNat = 0
  · rw [mag32_of_exp_zero hzero]
    omega
  rw [mag32_of_exp_ne_zero hzero]
  constructor
  · intro hmag
    by_contra hexp
    have hpow : 2 ^ ((exp32 a).toNat - 1) ≤ 2 ^ 101 := Nat.pow_le_pow_right (by omega) (by omega)
    have hlt : (2 ^ 23 + (frac32 a).toNat) * 2 ^ ((exp32 a).toNat - 1) < 2 ^ 24 * 2 ^ 101 :=
      Nat.mul_lt_mul_of_lt_of_le (by omega) hpow (by positivity)
    omega
  · intro hexp
    calc 2 ^ 125 = 2 ^ 23 * 2 ^ 102 := by norm_num
      _ ≤ _ := Nat.mul_le_mul (by omega) (Nat.pow_le_pow_right (by omega) (by omega))

/-! ## The words that the codec packs -/

theorem halfOf_toNat (s : BitVec 1) {code : Nat} (hcode : code < 2 ^ 15) :
    (halfOf s code).toNat = s.toNat * 2 ^ 15 + code := by
  have hs : s.toNat < 2 := s.isLt
  have hcode16 : code % 2 ^ 16 = code := Nat.mod_eq_of_lt (by omega)
  have hsign : s.toNat * 2 ^ 15 % 2 ^ 16 = s.toNat * 2 ^ 15 := Nat.mod_eq_of_lt (by omega)
  rw [halfOf, BitVec.toNat_or, BitVec.toNat_shiftLeft, BitVec.toNat_setWidth, BitVec.toNat_ofNat, hcode16,
    Nat.mod_eq_of_lt (by omega : s.toNat < 2 ^ 16), Nat.shiftLeft_eq, hsign, Nat.mul_comm,
    Nat.two_pow_add_eq_or_of_lt hcode]

/-- The binary32 word with sign `s`, exponent field `e`, and the 10-bit `m` at the top of the fraction: the form of every
word that a half widens to (41_half_codec.md R114). -/
def widenedWord (s : BitVec 1) (e m : Nat) : Word :=
  s.setWidth 32 <<< 31 ||| BitVec.ofNat 32 (e <<< 23) ||| BitVec.ofNat 32 (m <<< 13)

theorem widenedWord_toNat (s : BitVec 1) {e m : Nat} (he : e < 256) (hm : m < 1024) :
    (widenedWord s e m).toNat = s.toNat * 2 ^ 31 + e * 2 ^ 23 + m * 2 ^ 13 := by
  have hs : s.toNat < 2 := s.isLt
  have hsign : (s.setWidth 32 <<< 31).toNat = 2 ^ 31 * s.toNat := by
    rw [BitVec.toNat_shiftLeft, BitVec.toNat_setWidth, Nat.shiftLeft_eq]
    omega
  have hexp : (BitVec.ofNat 32 (e <<< 23)).toNat = 2 ^ 23 * e := by
    rw [BitVec.toNat_ofNat, Nat.shiftLeft_eq]
    omega
  have hfrac : (BitVec.ofNat 32 (m <<< 13)).toNat = 2 ^ 13 * m := by
    rw [BitVec.toNat_ofNat, Nat.shiftLeft_eq]
    omega
  rw [widenedWord, BitVec.toNat_or, BitVec.toNat_or, hsign, hexp, hfrac, Nat.or_assoc,
    ← Nat.two_pow_add_eq_or_of_lt (by omega : 2 ^ 13 * m < 2 ^ 23),
    ← Nat.two_pow_add_eq_or_of_lt (by omega : 2 ^ 23 * e + 2 ^ 13 * m < 2 ^ 31)]
  ring

theorem sign32_widenedWord (s : BitVec 1) {e m : Nat} (he : e < 256) (hm : m < 1024) :
    sign32 (widenedWord s e m) = s := by
  apply BitVec.eq_of_toNat_eq
  rw [sign32_toNat, widenedWord_toNat s he hm]
  omega

theorem exp32_widenedWord (s : BitVec 1) {e m : Nat} (he : e < 256) (hm : m < 1024) :
    (exp32 (widenedWord s e m)).toNat = e := by
  rw [exp32_toNat, widenedWord_toNat s he hm]
  omega

theorem frac32_widenedWord (s : BitVec 1) {e m : Nat} (he : e < 256) (hm : m < 1024) :
    (frac32 (widenedWord s e m)).toNat = m * 2 ^ 13 := by
  rw [frac32_toNat, widenedWord_toNat s he hm]
  omega

/-- In units of 2^-149: the 11-bit significand `1024 + m`, scaled by the exponent. -/
theorem mag32_widenedWord (s : BitVec 1) {e m : Nat} (hpos : e ≠ 0) (he : e < 256) (hm : m < 1024) :
    mag32 (widenedWord s e m) = (1024 + m) * 2 ^ (e + 12) := by
  have hexp := exp32_widenedWord s he hm
  rw [mag32_of_exp_ne_zero (hexp.trans_ne hpos), hexp, frac32_widenedWord s he hm,
    show e + 12 = 13 + (e - 1) by omega, pow_add]
  ring

end Sys2Proof.Machine

/-! # Narrowing (41_half_codec.md R103 to R108) -/

namespace Sys2Proof.Machine

/-! ## The branches of `f2h`, a case at a time -/

theorem f2h_of_isNaN32 (mode : HalfUnderflow) {a : Word} (h : isNaN32 a = true) : f2h mode a = halfOf (sign32 a) 0x7E00 :=
  if_pos ((isNaN32_iff a).1 h)

theorem f2h_of_isInf32 (mode : HalfUnderflow) {a : Word} (h : isInf32 a = true) : f2h mode a = halfOf (sign32 a) 0x7C00 := by
  obtain ⟨hexp, hfrac⟩ := (isInf32_iff a).1 h
  simp only [f2h, hexp, hfrac, ne_eq, not_true_eq_false, and_false, if_true, if_false]

/-- A finite magnitude of 2^16 or more overflows (R107). -/
theorem f2h_of_large (mode : HalfUnderflow) {a : Word} (hfin : isFinite32 a = true) (hlarge : 143 ≤ (exp32 a).toNat) :
    f2h mode a = halfOf (sign32 a) 0x7C00 := by
  have hexp := (isFinite32_iff a).1 hfin
  have hzero : (exp32 a).toNat ≠ 0 := by omega
  have hE : ((exp32 a).toNat : Int) - 127 ≥ 16 := by omega
  simp only [f2h, hexp, hzero, hE, false_and, if_true, if_false]

/-- A magnitude below 2^-24 is flushed in this hardware's mode (R105). -/
theorem f2h_flush_of_small {a : Word} (hsmall : (exp32 a).toNat < 103) :
    f2h .flushBelowMinSubnormal a = halfOf (sign32 a) 0 := by
  have hexp : (exp32 a).toNat ≠ 0xFF := by omega
  have hE : ¬ ((exp32 a).toNat : Int) - 127 ≥ 16 := by omega
  have htiny : ((exp32 a).toNat : Int) - 127 < -24 := by omega
  simp only [f2h, hexp, hE, htiny, false_and, and_self, if_true, if_false, ite_self]

/-- From 2^-24 up to 2^16 the significand is rounded (R108). -/
theorem f2h_of_mid (mode : HalfUnderflow) {a : Word} (hlow : 103 ≤ (exp32 a).toNat) (hhigh : (exp32 a).toNat < 143) :
    f2h mode a = halfOf (sign32 a) (roundedHalfCode ((exp32 a).toNat - 127) (2 ^ 23 + (frac32 a).toNat)) := by
  have hexp : (exp32 a).toNat ≠ 0xFF := by omega
  have hzero : (exp32 a).toNat ≠ 0 := by omega
  have hE : ¬ ((exp32 a).toNat : Int) - 127 ≥ 16 := by omega
  have hflush : ¬ ((exp32 a).toNat : Int) - 127 < -24 := by omega
  have hgradual : ¬ ((exp32 a).toNat : Int) - 127 < -25 := by omega
  simp only [f2h, hexp, hzero, hE, hflush, hgradual, false_and, and_false, if_false, Nat.reducePow]

/-- The sign is not part of the code: a narrowed half determines its code. -/
theorem code_eq_of_f2h_eq_halfOf {mode : HalfUnderflow} {a : Word} {code k : Nat} (h : f2h mode a = halfOf (sign32 a) k)
    (hk : k < 2 ^ 15) (hcode : (f2h mode a).toNat = a.toNat / 2 ^ 31 * 2 ^ 15 + code) : code = k := by
  rw [h, halfOf_toNat _ hk, sign32_toNat] at hcode
  omega

theorem isQuiet16_quietNaN (s : BitVec 1) : isQuiet16 (halfOf s 0x7E00) = true := by
  revert s
  decide

/-- Settles O17: every NaN takes the first branch of `f2h`, which packs the quiet NaN. -/
theorem narrowNaN : Obligations.NarrowNaN := by
  intro mode a hnan
  rw [f2h_of_isNaN32 mode hnan]
  exact ⟨by rw [halfOf_toNat _ (by norm_num), sign32_toNat], isQuiet16_quietNaN _⟩

/-! ## The half grid (41_half_codec.md R103 case 4) -/

/-- In binade `x` the codes count the grid in steps of `2^x`, the step's end included: `n` is the significand with its
hidden bit, and the subnormals, where `n` has none, continue binade 0 downwards. -/
theorem halfGrid_binade {x n : Nat} (hn : n ≤ 2048) (hhidden : x = 0 ∨ 1024 ≤ n) :
    halfGrid (x * 1024 + n) = n * 2 ^ (x + 125) := by
  unfold halfGrid
  rw [pow_add, ← mul_assoc]
  congr 1
  obtain hlt | rfl | hmid | rfl : n < 1024 ∨ n = 1024 ∨ (1024 < n ∧ n < 2048) ∨ n = 2048 := by omega
  · obtain rfl : x = 0 := by omega
    rw [if_pos (by omega)]
    omega
  · rw [if_neg (by omega), show (x * 1024 + 1024) / 1024 - 1 = x by omega, show (x * 1024 + 1024) % 1024 = 0 by omega]
  · rw [if_neg (by omega), show (x * 1024 + n) / 1024 - 1 = x by omega,
      show 1024 + (x * 1024 + n) % 1024 = n by omega]
  · rw [if_neg (by omega), show (x * 1024 + 2048) / 1024 - 1 = x + 1 by omega,
      show (x * 1024 + 2048) % 1024 = 0 by omega, pow_succ]
    omega

theorem halfGrid_strictMono : StrictMono halfGrid := by
  refine strictMono_nat_of_lt_succ fun c => ?_
  obtain ⟨x, n, rfl, hn, hhidden⟩ : ∃ x n, c = x * 1024 + n ∧ n < 2048 ∧ (x = 0 ∨ 1024 ≤ n) := by
    by_cases hsub : c < 1024
    · exact ⟨0, c, by omega, by omega, .inl rfl⟩
    · exact ⟨c / 1024 - 1, c % 1024 + 1024, by omega, by omega, .inr (by omega)⟩
  rw [add_assoc, halfGrid_binade hn.le hhidden, halfGrid_binade hn (by omega)]
  exact Nat.mul_lt_mul_of_pos_right (Nat.lt_succ_self n) (by positivity)

/-! ## Rounding to nearest, ties to even (41_half_codec.md R104) -/

/-- Of the two neighbours `lo` and `lo + 1` of `v` on the grid, `code` is the nearer one, or the even one at the midpoint. -/
def RoundsEven (g : Nat → Nat) (v lo code : Nat) : Prop :=
  (code = lo ∧ (2 * v < g lo + g (lo + 1) ∨ (2 * v = g lo + g (lo + 1) ∧ lo % 2 = 0))) ∨
  (code = lo + 1 ∧ (g lo + g (lo + 1) < 2 * v ∨ (2 * v = g lo + g (lo + 1) ∧ lo % 2 = 1)))

/-- On an increasing grid the better of the two neighbours is the best of all points. -/
theorem RoundsEven.nearest {g : Nat → Nat} (hg : StrictMono g) {v lo code : Nat} (hlo : g lo ≤ v) (hhi : v ≤ g (lo + 1))
    (h : RoundsEven g v lo code) (c : Nat) :
    ((g code : Int) - v).natAbs ≤ ((g c : Int) - v).natAbs ∧
      (((g c : Int) - v).natAbs = ((g code : Int) - v).natAbs → c ≠ code → code % 2 = 0) := by
  have hc : c = lo ∨ c = lo + 1 ∨ g c < g lo ∨ g (lo + 1) < g c := by
    rw [hg.lt_iff_lt, hg.lt_iff_lt]
    omega
  obtain ⟨rfl, h⟩ | ⟨rfl, h⟩ := h <;> obtain rfl | rfl | hc | hc := hc <;> omega

theorem roundShiftEven_cases (sig : Nat) {sh : Nat} (hsh : 0 < sh) :
    (roundShiftEven sig sh = sig / 2 ^ sh ∧
      (2 * (sig % 2 ^ sh) < 2 ^ sh ∨ (2 * (sig % 2 ^ sh) = 2 ^ sh ∧ sig / 2 ^ sh % 2 = 0))) ∨
    (roundShiftEven sig sh = sig / 2 ^ sh + 1 ∧
      (2 ^ sh < 2 * (sig % 2 ^ sh) ∨ (2 * (sig % 2 ^ sh) = 2 ^ sh ∧ sig / 2 ^ sh % 2 = 1))) := by
  have hhalf : 2 ^ sh = 2 * 2 ^ (sh - 1) := by rw [← pow_succ', Nat.sub_add_cancel hsh]
  simp only [roundShiftEven, Nat.shiftRight_eq_div_pow]
  split <;> omega

/-- Rounding the significand rounds the value, when the grid's two points around the value are the significand's two
neighbouring multiples of `2^sh`, and the code has the significand's parity. -/
theorem roundsEven_of_roundShiftEven {g : Nat → Nat} {sig sh u base : Nat} (hsh : 0 < sh) (hbase : base % 2 = 0)
    (hlo : g (base + sig / 2 ^ sh) = sig / 2 ^ sh * (2 ^ sh * u))
    (hhi : g (base + sig / 2 ^ sh + 1) = (sig / 2 ^ sh + 1) * (2 ^ sh * u)) (hu : 0 < u) :
    RoundsEven g (sig * u) (base + sig / 2 ^ sh) (base + roundShiftEven sig sh) := by
  have hsum : g (base + sig / 2 ^ sh) + g (base + sig / 2 ^ sh + 1) + 2 * (sig % 2 ^ sh) * u =
      2 * (sig * u) + 2 ^ sh * u := by
    rw [hlo, hhi]
    linear_combination 2 * u * Nat.div_add_mod sig (2 ^ sh)
  obtain ⟨hr, hrem | ⟨hrem, hpar⟩⟩ | ⟨hr, hrem | ⟨hrem, hpar⟩⟩ := roundShiftEven_cases sig hsh
  · have := Nat.mul_lt_mul_of_pos_right hrem hu
    exact .inl ⟨by rw [hr], .inl (by omega)⟩
  · rw [hrem] at hsum
    exact .inl ⟨by rw [hr], .inr ⟨by omega, by omega⟩⟩
  · have := Nat.mul_lt_mul_of_pos_right hrem hu
    exact .inr ⟨by rw [hr, add_assoc], .inl (by omega)⟩
  · rw [hrem] at hsum
    exact .inr ⟨by rw [hr, add_assoc], .inr ⟨by omega, by omega⟩⟩

/-! ## The rounded codes -/

/-- The bits that narrowing drops from the significand of a word with exponent field `e` (R108). -/
def droppedBits (e : Nat) : Nat := if 113 ≤ e then 13 else 126 - e

theorem roundedHalfCode_eq (e sig : Nat) :
    roundedHalfCode (e - 127) sig = (e - 113) * 1024 + roundShiftEven sig (droppedBits e) := by
  unfold roundedHalfCode droppedBits
  by_cases hnormal : 113 ≤ e
  · have hE : (e : Int) - 127 ≥ -14 := by omega
    have hx : ((e : Int) - 127 + 15).toNat = e - 113 + 1 := by omega
    simp only [hE, hnormal, hx, if_true]
    rw [if_pos (Nat.succ_ne_zero _)]
    omega
  · have hE : ¬ (e : Int) - 127 ≥ -14 := by omega
    have hsh : (-1 - ((e : Int) - 127)).toNat = 126 - e := by omega
    have hx : e - 113 = 0 := by omega
    simp only [hE, hnormal, hsh, hx, if_false, ne_eq, not_true_eq_false, Nat.zero_mul, Nat.zero_add]

/-- From 2^-24 up to 2^16 the code is the rounded one of the two grid points around the magnitude. -/
theorem roundedHalfCode_roundsEven {e sig : Nat} (hlow : 103 ≤ e) (hhigh : e < 143) (hsig : 2 ^ 23 ≤ sig)
    (hsig' : sig < 2 ^ 24) : ∃ lo, lo < 0x7C00 ∧ halfGrid lo ≤ sig * 2 ^ (e - 1) ∧ sig * 2 ^ (e - 1) ≤ halfGrid (lo + 1) ∧
      RoundsEven halfGrid (sig * 2 ^ (e - 1)) lo (roundedHalfCode (e - 127) sig) := by
  have hsh : 13 ≤ droppedBits e ∧ (e - 113 = 0 ∨ droppedBits e = 13) ∧ e - 113 + 125 = droppedBits e + (e - 1) := by
    unfold droppedBits
    split <;> omega
  obtain ⟨hdrop, hsub, hunit⟩ := hsh
  rw [roundedHalfCode_eq]
  generalize droppedBits e = sh at *
  have hquot : sig / 2 ^ sh < 2048 :=
    (Nat.div_le_div_left (Nat.pow_le_pow_right (by norm_num) hdrop) (by norm_num)).trans_lt (by omega)
  have hhidden : e - 113 = 0 ∨ 1024 ≤ sig / 2 ^ sh := by
    obtain hsub | rfl := hsub
    · exact .inl hsub
    · exact .inr (by omega)
  have hgridLo : halfGrid ((e - 113) * 1024 + sig / 2 ^ sh) = sig / 2 ^ sh * (2 ^ sh * 2 ^ (e - 1)) := by
    rw [halfGrid_binade hquot.le hhidden, hunit, pow_add]
  have hgridHi : halfGrid ((e - 113) * 1024 + sig / 2 ^ sh + 1) = (sig / 2 ^ sh + 1) * (2 ^ sh * 2 ^ (e - 1)) := by
    rw [add_assoc, halfGrid_binade hquot (by omega), hunit, pow_add]
  refine ⟨(e - 113) * 1024 + sig / 2 ^ sh, by omega, ?_, ?_,
    roundsEven_of_roundShiftEven (by omega) (by omega) hgridLo hgridHi (by positivity)⟩
  · rw [hgridLo, ← mul_assoc]
    exact Nat.mul_le_mul_right _ (Nat.div_mul_le_self sig _)
  · rw [hgridHi, ← mul_assoc]
    exact Nat.mul_le_mul_right _ ((Nat.div_lt_iff_lt_mul (by positivity)).1 (Nat.lt_succ_self _)).le

/-- A magnitude of 2^16 or more is nearest to the last grid point, and to no other. -/
theorem gridDistance_of_large {a : Word} (hlarge : 143 ≤ (exp32 a).toNat) {c : Nat} (hc : c < 0x7C00) :
    gridDistance 0x7C00 a < gridDistance c a := by
  have htop : halfGrid 0x7C00 ≤ mag32 a := by
    rw [mag32_of_exp_ne_zero (by omega)]
    calc halfGrid 0x7C00 = 2 ^ 23 * 2 ^ 142 := by norm_num [halfGrid]
      _ ≤ _ := Nat.mul_le_mul (by omega) (Nat.pow_le_pow_right (by omega) (by omega))
  have hlt := halfGrid_strictMono hc
  unfold gridDistance
  omega

/-- Settles O18: by class, and for a finite word of 2^-24 and more by the exponent, below 2^16 (rounded) or not
(overflow). -/
theorem narrowRoundsToNearestEven : Obligations.NarrowRoundsToNearestEven := by
  rintro a _ code rfl hcode -
  refine ⟨fun hnan => ?nan, fun hinf => ?inf, fun hfin hmag => ?small, fun hfin hmag => ?grid⟩
  case nan => exact code_eq_of_f2h_eq_halfOf (f2h_of_isNaN32 _ hnan) (by norm_num) hcode
  case inf => exact code_eq_of_f2h_eq_halfOf (f2h_of_isInf32 _ hinf) (by norm_num) hcode
  case small =>
    have hexp := not_le.1 (mt (two_pow_125_le_mag32_iff a).2 hmag.not_ge)
    exact code_eq_of_f2h_eq_halfOf (f2h_flush_of_small hexp) (by norm_num) hcode
  case grid =>
    have hlow := (two_pow_125_le_mag32_iff a).1 hmag
    by_cases hhigh : (exp32 a).toNat < 143
    · have hfrac : (frac32 a).toNat < 2 ^ 23 := (frac32 a).isLt
      obtain ⟨lo, hlo, hbelow, habove, hround⟩ :=
        roundedHalfCode_roundsEven hlow hhigh (Nat.le_add_right _ (frac32 a).toNat) (by omega)
      rw [← mag32_of_exp_ne_zero (by omega)] at hbelow habove hround
      have hle : roundedHalfCode ((exp32 a).toNat - 127) (2 ^ 23 + (frac32 a).toNat) ≤ 0x7C00 := by
        obtain ⟨heq, -⟩ | ⟨heq, -⟩ := hround <;> omega
      obtain rfl := code_eq_of_f2h_eq_halfOf (f2h_of_mid _ hlow hhigh) (by omega) hcode
      exact ⟨hle, fun c _ => hround.nearest halfGrid_strictMono hbelow habove c⟩
    · obtain rfl := code_eq_of_f2h_eq_halfOf (f2h_of_large _ hfin (not_lt.1 hhigh)) (by norm_num) hcode
      refine ⟨le_rfl, fun c hc => ⟨?_, fun _ _ => rfl⟩⟩
      obtain rfl | hlt := hc.eq_or_lt
      · exact le_rfl
      · exact (gridDistance_of_large (not_lt.1 hhigh) hlt).le

end Sys2Proof.Machine

/-! # Widening (41_half_codec.md R112, R114) -/

namespace Sys2Proof.Machine

/-! ## The branches of `h2f`, each as a packed word -/

theorem h2f_of_exp_all_ones {h : Half} (he : (exp16 h).toNat = 0x1F) :
    h2f h = widenedWord (sign16 h) 0xFF (frac16 h).toNat := by
  simp only [h2f, he, if_true]
  rfl

theorem h2f_of_zero {h : Half} (he : (exp16 h).toNat = 0) (hm : (frac16 h).toNat = 0) :
    h2f h = widenedWord (sign16 h) 0 0 := by
  simp [h2f, he, hm, widenedWord]

/-- Shifting a subnormal's fraction until its leading bit is bit 10, the hidden one. -/
theorem normalized_bounds {m : Nat} (hm : m ≠ 0) (hlt : m < 1024) :
    m.log2 < 10 ∧ 1024 ≤ m * 2 ^ (10 - m.log2) ∧ m * 2 ^ (10 - m.log2) < 2048 := by
  have hp : m.log2 < 10 := (Nat.log2_lt hm).2 hlt
  have hscale : 2 ^ m.log2 * 2 ^ (10 - m.log2) = 1024 := by
    rw [← pow_add, Nat.add_sub_cancel' hp.le]
    rfl
  have hlow := Nat.mul_le_mul_right (2 ^ (10 - m.log2)) (Nat.log2_self_le hm)
  have hhigh := Nat.mul_lt_mul_of_pos_right (Nat.lt_log2_self (n := m)) (Nat.two_pow_pos (10 - m.log2))
  rw [pow_succ] at hhigh
  exact ⟨hp, by omega, by linarith⟩

/-- The leading bit of a subnormal half becomes the hidden bit, which the mask drops. -/
theorem h2f_of_subnormal {h : Half} (he : (exp16 h).toNat = 0) (hm : (frac16 h).toNat ≠ 0) :
    h2f h = widenedWord (sign16 h) ((frac16 h).toNat.log2 + 103)
      ((frac16 h).toNat * 2 ^ (10 - (frac16 h).toNat.log2) - 1024) := by
  obtain ⟨-, hlow, hhigh⟩ := normalized_bounds hm (frac16 h).isLt
  have hmask : (frac16 h).toNat <<< (10 - (frac16 h).toNat.log2) &&& 0x3FF =
      (frac16 h).toNat * 2 ^ (10 - (frac16 h).toNat.log2) - 1024 := by
    rw [Nat.and_two_pow_sub_one_eq_mod _ 10, Nat.shiftLeft_eq]
    omega
  simp only [h2f, he, hm, and_false, if_true, if_false, hmask]
  rfl

theorem h2f_of_normal {h : Half} (he : (exp16 h).toNat ≠ 0) (hfin : (exp16 h).toNat ≠ 0x1F) :
    h2f h = widenedWord (sign16 h) ((exp16 h).toNat + 112) (frac16 h).toNat := by
  simp only [h2f, he, hfin, false_and, if_false]
  rfl

/-! ## What widening keeps -/

/-- A finite half widens to a zero or to a binary32 normal, of the same magnitude (R112). -/
theorem h2f_of_finite {h : Half} (hfin : isFinite16 h = true) :
    (mag16 h = 0 ∧ h2f h = widenedWord (sign16 h) 0 0) ∨
    ∃ e m, e ≠ 0 ∧ e < 0xFF ∧ m < 1024 ∧ h2f h = widenedWord (sign16 h) e m ∧
      (1024 + m) * 2 ^ (e + 12) = mag16 h * 2 ^ 125 := by
  have hexp := (isFinite16_iff h).1 hfin
  have hexp32 : (exp16 h).toNat < 32 := (exp16 h).isLt
  have hfrac : (frac16 h).toNat < 1024 := (frac16 h).isLt
  by_cases he : (exp16 h).toNat = 0
  · rw [mag16_of_exp_zero he]
    by_cases hm : (frac16 h).toNat = 0
    · exact .inl ⟨hm, h2f_of_zero he hm⟩
    · obtain ⟨hp, hlow, hhigh⟩ := normalized_bounds hm hfrac
      refine .inr ⟨_, _, by omega, by omega, by omega, h2f_of_subnormal he hm, ?_⟩
      rw [Nat.add_sub_cancel' hlow, mul_assoc, ← pow_add]
      congr 2
      omega
  · refine .inr ⟨_, _, by omega, by omega, hfrac, h2f_of_normal he hexp, ?_⟩
    rw [mag16_of_exp_ne_zero he, mul_assoc, ← pow_add]
    congr 2
    omega

theorem isFinite32_h2f {h : Half} (hfin : isFinite16 h = true) : isFinite32 (h2f h) = true := by
  rw [isFinite32_iff]
  obtain ⟨-, hw⟩ | ⟨e, m, -, he, hm, hw, -⟩ := h2f_of_finite hfin
  · rw [hw, exp32_widenedWord _ (by norm_num) (by norm_num)]
    norm_num
  · rw [hw, exp32_widenedWord _ (by omega) hm]
    exact he.ne

/-- The unit of a word's magnitude is 2^125 times smaller than that of a half's. -/
theorem mag32_h2f {h : Half} (hfin : isFinite16 h = true) : mag32 (h2f h) = mag16 h * 2 ^ 125 := by
  obtain ⟨hzero, hw⟩ | ⟨e, m, hpos, he, hm, hw, hmag⟩ := h2f_of_finite hfin
  · rw [hw, hzero, mag32_of_exp_zero (exp32_widenedWord _ (by norm_num) (by norm_num)),
      frac32_widenedWord _ (by norm_num) (by norm_num)]
    norm_num
  · rw [hw, mag32_widenedWord _ hpos (by omega) hm, hmag]

/-- Every half, NaNs included, widens to a word of its sign. -/
theorem sign32_h2f (h : Half) : sign32 (h2f h) = sign16 h := by
  by_cases hexp : (exp16 h).toNat = 0x1F
  · rw [h2f_of_exp_all_ones hexp, sign32_widenedWord _ (by norm_num) (frac16 h).isLt]
  · obtain ⟨-, hw⟩ | ⟨e, m, -, he, hm, hw, -⟩ := h2f_of_finite ((isFinite16_iff h).2 hexp)
    · rw [hw, sign32_widenedWord _ (by norm_num) (by norm_num)]
    · rw [hw, sign32_widenedWord _ (by omega) hm]

theorem val32_h2f {h : Half} (hfin : isFinite16 h = true) : val32 (h2f h) = val16 h := by
  rw [val32, val16, sign32_h2f, mag32_h2f hfin]
  push_cast
  ring

theorem isInf32_h2f {h : Half} (hinf : isInf16 h = true) : isInf32 (h2f h) = true := by
  obtain ⟨hexp, hfrac⟩ := (isInf16_iff h).1 hinf
  rw [isInf32_iff, h2f_of_exp_all_ones hexp, hfrac]
  exact ⟨exp32_widenedWord _ (by norm_num) (by norm_num), frac32_widenedWord _ (by norm_num) (by norm_num)⟩

/-- A half subnormal is a binary32 normal: no half is below the normal range of binary32. -/
theorem exp32_h2f_of_subnormal {h : Half} (he : (exp16 h).toNat = 0) (hm : (frac16 h).toNat ≠ 0) :
    (exp32 (h2f h)).toNat = (frac16 h).toNat.log2 + 103 := by
  obtain ⟨hp, -, hhigh⟩ := normalized_bounds hm (frac16 h).isLt
  rw [h2f_of_subnormal he hm, exp32_widenedWord _ (by omega) (by omega)]

/-- Settles O23: the magnitude scales by the ratio of the two units, and the sign is copied. -/
theorem widenIsExact : Obligations.WidenIsExact := by
  refine fun h => ⟨fun hfin => ⟨isFinite32_h2f hfin, val32_h2f hfin, sign32_h2f h⟩,
    fun hinf => ⟨isInf32_h2f hinf, sign32_h2f h⟩, fun he hm hzero => ?_⟩
  have hexp := exp32_h2f_of_subnormal (congrArg BitVec.toNat he) fun h0 => hm (BitVec.eq_of_toNat_eq h0)
  rw [hzero] at hexp
  exact absurd hexp (Nat.succ_ne_zero _).symm

end Sys2Proof.Machine

/-! # F32TOF16 and F16TOF32: the codec on lanes (41_half_codec.md R110, R120) -/

namespace Sys2Proof.Machine

theorem readY_lowY_writeLanes (n : Nat) (f : Fin 4 → Word) (s : State) (j : Fin 4) :
    readY (lowY j) (writeLanes n f s) = if j.val < n then f j else readY (lowY j) s := by
  by_cases hj : j.val < n
  · rw [readY_writeLanes, dif_pos ⟨j.isLt, hj⟩, if_pos hj]
    rfl
  · rw [readY_writeLanes, dif_neg fun h => hj h.2, if_neg hj]

theorem readY_highY_writeLanes (n : Nat) (f : Fin 4 → Word) (s : State) (j : Fin 4) :
    readY (highY j) (writeLanes n f s) = readY (highY j) s := by
  rw [readY_writeLanes, dif_neg]
  simp [highY]

/-- A command that is a lane loop completes, with the loop's results in the low registers and the rest as it was. -/
theorem exec_of_writeLanes {i : Instr} {n : Nat} {f : Fin 4 → Word} {s : State}
    (hexec : exec i s = .next (writeLanes n f s)) : ∃ t, exec i s = .next t ∧
      (∀ j : Fin 4, readY (lowY j) t = if j.val < n then f j else readY (lowY j) s) ∧
      (∀ j : Fin 4, readY (highY j) t = readY (highY j) s) ∧ t.prng = s.prng ∧ commandFrame s t :=
  ⟨_, hexec, readY_lowY_writeLanes n f s, readY_highY_writeLanes n f s, prng_eq_of_yFrame (writeLanes_frame n f s),
    exec_commandFrame hexec⟩

/-- The word of each F32TOF16 form, and its meaning. -/
theorem f32tof16Forms_eq {i : Instr} {n : Nat} (h : (i, n) ∈ f32tof16Forms) :
    decode (BitVec.ofNat 32 (16 * (n - 1) + 1)) = .legal i ∧ ∀ s, exec i s = .next (narrowLanes n s) := by
  simp only [f32tof16Forms, List.mem_cons, Prod.mk.injEq, List.not_mem_nil, or_false] at h
  obtain ⟨rfl, rfl⟩ | ⟨rfl, rfl⟩ | ⟨rfl, rfl⟩ | ⟨rfl, rfl⟩ := h <;> exact ⟨rfl, fun _ => rfl⟩

/-- The word of each F16TOF32 form, and its meaning. -/
theorem f16tof32Forms_eq {i : Instr} {n : Nat} (h : (i, n) ∈ f16tof32Forms) :
    decode (BitVec.ofNat 32 (16 * (n - 1) + 2)) = .legal i ∧ ∀ s, exec i s = .next (widenLanes n s) := by
  simp only [f16tof32Forms, List.mem_cons, Prod.mk.injEq, List.not_mem_nil, or_false] at h
  obtain ⟨rfl, rfl⟩ | ⟨rfl, rfl⟩ | ⟨rfl, rfl⟩ | ⟨rfl, rfl⟩ := h <;> exact ⟨rfl, fun _ => rfl⟩

theorem halfOperand_eq (v : Word) : halfOperand v = BitVec.ofNat 16 (v.toNat % 2 ^ 16) := by
  apply BitVec.eq_of_toNat_eq
  simp [halfOperand]

/-- Settles O16: each form is a lane loop of `f2h` in this hardware's mode. -/
theorem f32tof16Result : Obligations.F32tof16Result := by
  refine ⟨by decide, fun i n h s => ?_⟩
  obtain ⟨hdecode, hexec⟩ := f32tof16Forms_eq h
  exact ⟨hdecode, exec_of_writeLanes (hexec s)⟩

/-- Settles O22: each form is a lane loop of `h2f` on the low half of the lane. -/
theorem f16tof32Result : Obligations.F16tof32Result := by
  refine ⟨fun i n h s => ?_, by decide⟩
  obtain ⟨hdecode, hexec⟩ := f16tof32Forms_eq h
  simp only [← halfOperand_eq]
  exact ⟨hdecode, exec_of_writeLanes (hexec s)⟩

end Sys2Proof.Machine

/-! # SinCos: the identity bound, non-finite inputs, and the evaluator on lanes (42_sincos.md R131, R133, R136) -/

namespace Sys2Proof.Machine

/-! ## The identity bound -/

/-- The square of an exact value does not see the sign. -/
theorem val32_sq (a : Word) : val32 a ^ 2 = (mag32 a : Rat) ^ 2 / (2 ^ 149 * 2 ^ 149) := by
  by_cases hsign : sign32 a = 1
  · rw [val32, if_pos hsign]; ring
  · rw [val32, if_neg hsign]; ring

/-- The parts of the check on a result pair, the bound with its squares in units of 2^-298. -/
theorem sincosPairOk_iff (p : Word × Word) : sincosPairOk p = true ↔
    isFinite32 p.1 = true ∧ isFinite32 p.2 = true ∧
    |(mag32 p.1 : Int) ^ 2 + (mag32 p.2 : Int) ^ 2 - 2 ^ 149 * 2 ^ 149| * 1000000 ≤ 2 ^ 149 * 2 ^ 149 := by
  simp only [sincosPairOk, Bool.and_eq_true, decide_eq_true_eq, and_assoc]
  zify

/-- The model's integer check is the bound of R131 on the exact values: both sides scaled by 2^298. -/
theorem identityBound_of_sincosPairOk {p : Word × Word} (hok : sincosPairOk p = true) :
    |val32 p.1 ^ 2 + val32 p.2 ^ 2 - 1| ≤ 1 / 10 ^ 6 := by
  obtain ⟨-, -, hint⟩ := (sincosPairOk_iff p).1 hok
  have hrat : |(mag32 p.1 : Rat) ^ 2 + (mag32 p.2 : Rat) ^ 2 - 2 ^ 149 * 2 ^ 149| * 1000000 ≤ 2 ^ 149 * 2 ^ 149 := by
    exact_mod_cast hint
  have hscale : val32 p.1 ^ 2 + val32 p.2 ^ 2 - 1 =
      ((mag32 p.1 : Rat) ^ 2 + (mag32 p.2 : Rat) ^ 2 - 2 ^ 149 * 2 ^ 149) / (2 ^ 149 * 2 ^ 149) := by
    rw [val32_sq, val32_sq]; ring
  rw [hscale, abs_div, abs_of_pos (by norm_num : (0 : Rat) < 2 ^ 149 * 2 ^ 149),
    div_le_div_iff₀ (by norm_num) (by norm_num)]
  linarith only [hrat]

/-- `SINCOS_FN` meets the check on every finite input, whatever the open constant is. -/
theorem sincosFn_pairOk {x : Word} (hfin : isFinite32 x = true) : sincosPairOk (sincosFn x) = true :=
  sincosOf_pairOk Config.sincosRaw x hfin

/-- Settles O29: the model's integer check on the pair, read on the exact values. -/
theorem sincosIdentityBound : Obligations.SincosIdentityBound :=
  fun _ hfin => identityBound_of_sincosPairOk (sincosFn_pairOk hfin)

/-! ## Non-finite inputs -/

theorem isFinite32_eq_false_iff (a : Word) : isFinite32 a = false ↔ isNaN32 a = true ∨ isInf32 a = true := by
  rw [← Bool.not_eq_true, isFinite32_iff, isNaN32_iff, isInf32_iff]
  tauto

theorem sincosFn_of_not_finite {x : Word} (hx : isFinite32 x = false) : sincosFn x = (sincosNaN, sincosNaN) := by
  rw [sincosFn, sincosOf, if_pos hx]

/-- Settles O28: a NaN or an infinity is not finite. -/
theorem sincosOfNonFinite : Obligations.SincosOfNonFinite :=
  fun x hx => sincosFn_of_not_finite ((isFinite32_eq_false_iff x).2 hx)

/-! ## The evaluator on lanes -/

/-- The word of each SINCOS form, and its meaning. -/
theorem sincosForms_eq {i : Instr} {n : Nat} (h : (i, n) ∈ sincosForms) :
    decode (BitVec.ofNat 32 (16 * (n - 1) + 3)) = .legal i ∧ ∀ s, exec i s = .next (sincosLanes n s) := by
  simp only [sincosForms, List.mem_cons, Prod.mk.injEq, List.not_mem_nil, or_false] at h
  obtain ⟨rfl, rfl⟩ | ⟨rfl, rfl⟩ | ⟨rfl, rfl⟩ | ⟨rfl, rfl⟩ := h <;> exact ⟨rfl, fun _ => rfl⟩

/-- Settles O27: each form is a loop over lane pairs of `SINCOS_FN`. -/
theorem sincosResult : Obligations.SincosResult := by
  intro i n h s
  obtain ⟨hdecode, hexec⟩ := sincosForms_eq h
  exact ⟨hdecode, sincosLanes n s, hexec s, readY_sincosLanes n s, prng_eq_of_yFrame (sincosLanes_frame n s),
    exec_commandFrame (hexec s)⟩

end Sys2Proof.Machine

/-! # Hash: the constraints on the tables, and both hashes as exact sums modulo 2^32 (43_hash.md R152, R154, R156) -/

namespace Sys2Proof.Machine

/-! ## The tables -/

/-- The entries of a table, over the places of the shape as pairs of a column and a row. -/
theorem tableEntries_eq_map_product (rows cols : Nat) (K : Fin 4 → Fin 4 → Word) :
    tableEntries rows cols K = (lanes cols ×ˢ lanes rows).map fun p => K p.1 p.2 := by
  simp only [tableEntries, SProd.sprod, List.product, List.map_flatMap, List.map_map, Function.comp_def]

theorem mem_lanes_product {rows cols : Nat} {c r : Fin 4} (hc : c.val < cols) (hr : r.val < rows) :
    (c, r) ∈ lanes cols ×ˢ lanes rows :=
  List.mem_product.2 ⟨(mem_lanes cols c).2 hc, (mem_lanes rows r).2 hr⟩

/-- What the model's check on a table says of the entry at a place of the shape. -/
theorem entry_of_tableLegal {rows cols : Nat} {K : Fin 4 → Fin 4 → Word} (hlegal : tableLegal rows cols K = true)
    {c r : Fin 4} (hc : c.val < cols) (hr : r.val < rows) :
    (K c r).toNat % 2 = 1 ∧
      ∀ c' r' : Fin 4, c'.val < cols → r'.val < rows → K c r = K c' r' → c = c' ∧ r = r' := by
  rw [tableLegal, tableEntries_eq_map_product, Bool.and_eq_true, List.all_eq_true, decide_eq_true_eq] at hlegal
  obtain ⟨hodd, hdistinct⟩ := hlegal
  have hplace := mem_lanes_product hc hr
  refine ⟨(getLsbD_zero_iff_odd _).1 (hodd _ (List.mem_map_of_mem hplace)), fun c' r' hc' hr' heq => ?_⟩
  exact Prod.mk.inj (List.inj_on_of_nodup_map hdistinct hplace (mem_lanes_product hc' hr') heq)

theorem hashC_odd (rows cols : Nat) : (hashC rows cols).toNat % 2 = 1 := by
  rw [← getLsbD_zero_iff_odd, hashC, BitVec.getLsbD_or]
  simp

/-- Settles O32: both tables pass the model's check whatever the open tables are, and `HASH_C` has bit 0 set. -/
theorem hashTablesMeetConstraints : Obligations.HashTablesMeetConstraints := by
  intro rows cols _ hrows _ hcols
  refine ⟨hashC_odd rows cols, fun K hK c r hc hr => ?_⟩
  have hlegal : tableLegal rows cols K = true := by
    obtain rfl | rfl : K = hashK rows cols ∨ K = wideK rows cols := by simpa using hK
    · exact tableOf_legal rows cols _ hrows hcols
    · exact tableOf_legal rows cols _ hrows hcols
  exact entry_of_tableLegal hlegal hc hr

/-! ## Word sums as exact sums modulo 2^32 (43_hash.md R153) -/

/-- A loop whose every pass adds `v i` modulo 2^32 adds the sum of the `v i` modulo 2^32. -/
theorem toNat_foldl_modEq {ι : Type} {g : Word → ι → Word} {v : ι → Nat}
    (hg : ∀ acc i, (g acc i).toNat ≡ v i + acc.toNat [MOD 2 ^ 32]) (l : List ι) (acc : Word) :
    (l.foldl g acc).toNat ≡ (l.map v).sum + acc.toNat [MOD 2 ^ 32] := by
  induction l generalizing acc with
  | nil => simp [Nat.ModEq.refl]
  | cons i l ih =>
    calc (l.foldl g (g acc i)).toNat
        ≡ (l.map v).sum + (g acc i).toNat [MOD 2 ^ 32] := ih _
      _ ≡ (l.map v).sum + (v i + acc.toNat) [MOD 2 ^ 32] := (hg acc i).add_left _
      _ = ((i :: l).map v).sum + acc.toNat := by rw [List.map_cons, List.sum_cons]; ring

theorem toNat_add_mul_modEq (acc x k : Word) : (acc + x * k).toNat ≡ x.toNat * k.toNat + acc.toNat [MOD 2 ^ 32] := by
  rw [BitVec.toNat_add, BitVec.toNat_mul, Nat.add_comm acc.toNat]
  exact (Nat.mod_modEq _ _).trans ((Nat.mod_modEq _ _).add_right _)

theorem toNat_eq_of_modEq {x : Word} {n : Nat} (h : x.toNat ≡ n [MOD 2 ^ 32]) : x.toNat = n % 2 ^ 32 :=
  (Nat.mod_eq_of_lt x.isLt).symm.trans h

/-- A sum over the lanes, as a sum over all four with the lanes above the count left out. -/
theorem sum_map_lanes (n : Nat) (v : Fin 4 → Nat) :
    ((lanes n).map v).sum = ∑ i : Fin 4, if i.val < n then v i else 0 := by
  match n with
  | 0 | 1 | 2 | 3 | n + 4 => simp [lanes, Fin.sum_univ_four, add_assoc]

/-- The wide hash of a row (43_hash.md R156), over exact integers. -/
theorem hashWideLane_toNat (cols : Nat) (K : Fin 4 → Fin 4 → Word) (k0 : Fin 4 → Word) (s : State) (r : Fin 4) :
    (hashWideLane cols K k0 s r).toNat =
      ((∑ c : Fin 4, if c.val < cols then (readA (elementA r c) s).toNat * (K c r).toNat else 0) +
        (k0 r).toNat) % 2 ^ 32 := by
  rw [hashWideLane, ← sum_map_lanes]
  apply toNat_eq_of_modEq
  refine toNat_foldl_modEq (fun acc c => ?_) _ _
  exact toNat_add_mul_modEq acc _ _

/-- The narrow hash (43_hash.md R154), over exact integers: its loop over the rows is one pass of its loop over the
columns. -/
theorem hashNarrow_toNat (rows cols : Nat) (K : Fin 4 → Fin 4 → Word) (k0 : Word) (s : State) :
    (hashNarrow rows cols K k0 s).toNat =
      ((∑ c : Fin 4, ∑ r : Fin 4, if c.val < cols ∧ r.val < rows
        then (readA (elementA r c) s).toNat * (K c r).toNat else 0) + k0.toNat) % 2 ^ 32 := by
  simp only [ite_and, Finset.sum_ite_irrel, Finset.sum_const_zero]
  rw [hashNarrow]
  simp only [← sum_map_lanes]
  apply toNat_eq_of_modEq
  refine toNat_foldl_modEq (fun acc c => toNat_foldl_modEq (fun acc r => ?_) _ acc) _ _
  exact toNat_add_mul_modEq acc _ _

/-! ## The commands -/

/-- The word of each HASH form, and its meaning. -/
theorem hashForms_eq {i : Instr} {rows cols : Nat} (h : (i, rows, cols) ∈ hashForms) :
    decode (BitVec.ofNat 32 (64 * (cols - 1) + 16 * (rows - 1) + 4)) = .legal i ∧
      ∀ s, exec i s = .next (hashShape rows cols s) := by
  generalize hf : (i, rows, cols) = f at h
  fin_cases h <;> cases hf <;> exact ⟨rfl, fun _ => rfl⟩

/-- The word of each HASHWIDE form, and its meaning. -/
theorem hashwideForms_eq {i : Instr} {rows cols : Nat} (h : (i, rows, cols) ∈ hashwideForms) :
    decode (BitVec.ofNat 32 (64 * (cols - 1) + 16 * (rows - 1) + 5)) = .legal i ∧
      ∀ s, exec i s = .next (hashwideShape rows cols s) := by
  generalize hf : (i, rows, cols) = f at h
  fin_cases h <;> cases hf <;> exact ⟨rfl, fun _ => rfl⟩

/-- Settles O33: each form writes the narrow hash of its shape to `Y[0]`, and that hash is the exact sum modulo 2^32. -/
theorem hashResult : Obligations.HashResult := by
  intro i rows cols h s
  obtain ⟨hdecode, hexec⟩ := hashForms_eq h
  refine ⟨hdecode, hashShape rows cols s, hexec s, ?_, fun j hj => ?_, prng_eq_of_yFrame (hashShape_frame rows cols s),
    exec_commandFrame (hexec s)⟩
  · rw [readY_hashShape, if_pos rfl, hashNarrow_toNat]
  · exact readY_hashShape_of_notMem (mt List.mem_singleton.1 hj) s

/-- Settles O34: each form is a lane loop of the wide hash, a lane for each row. -/
theorem hashwideResult : Obligations.HashwideResult := by
  intro i rows cols h s
  obtain ⟨hdecode, hexec⟩ := hashwideForms_eq h
  obtain ⟨t, ht, hlow, hhigh, hprng, hframe⟩ := exec_of_writeLanes (hexec s)
  refine ⟨hdecode, t, ht, fun r hr => ?_, fun r hr => ?_, hhigh, hprng, hframe⟩
  · rw [hlow, if_pos hr, hashWideLane_toNat]
  · rw [hlow, if_neg hr.not_gt]

end Sys2Proof.Machine

/-! # The generator: SEED and NEXTUINT (44_prng.md R174, R175, R177) -/

namespace Sys2Proof

/-- Every field but the opcode is reserved in the word of a command without operands, so the opcode is the whole word
(30_encoding.md R73, R76). -/
theorem toNat_eq_op_of_takesNothing {w : Word} {i : Instr} (h : decode w = .legal i)
    (hi : (encodingFields i).takesNothing = true) : w.toNat = (encodingFields i).op.toNat := by
  obtain ⟨hop, hres⟩ := decode_legal h
  rw [commandFields_op_toNat] at hop
  rw [setsReservedField_commandFields_iff] at hres
  have hopcode : (encodingFields i).op.toNat = 0 ∨ (encodingFields i).op.toNat = 6 := by
    simpa [CommandFields.takesNothing, BitVec.toNat_eq] using hi
  omega

theorem decode_eq_seed_iff (w : Word) : decode w = .legal .seed ↔ w = 6 := by
  constructor
  · exact fun h => BitVec.eq_of_toNat_eq (toNat_eq_op_of_takesNothing h rfl)
  · rintro rfl
    rfl

end Sys2Proof

namespace Sys2Proof.Machine

/-- SEED loads the seed's value into `S` and does nothing else (44_prng.md R175). -/
theorem exec_seed (s : State) : exec .seed s = .next { s with prng := seedValue (readA 0 s) } := rfl

/-- Settles O38: the one word of SEED is its opcode, and SEED sets `S` alone. -/
theorem seedLoadsState : Obligations.SeedLoadsState := ⟨decode_eq_seed_iff, exec_seed⟩

/-- The word of each NEXTUINT form, and its meaning: at most one draw for each of the four lanes. -/
theorem nextuintForms_eq {i : Instr} {n : Nat} (h : (i, n) ∈ nextuintForms) :
    n ≤ 4 ∧ decode (BitVec.ofNat 32 (16 * (n - 1) + 7)) = .legal i ∧ ∀ s, exec i s = .next (drawLanes n s) := by
  simp only [nextuintForms, List.mem_cons, Prod.mk.injEq, List.not_mem_nil, or_false] at h
  obtain ⟨rfl, rfl⟩ | ⟨rfl, rfl⟩ | ⟨rfl, rfl⟩ | ⟨rfl, rfl⟩ := h <;> exact ⟨by decide, rfl, fun _ => rfl⟩

/-- The value drawn last is the state after the draws: both are the same number of updates (44_prng.md R174). -/
theorem readY_lowY_drawLanes_last {n : Nat} {j : Fin 4} (hlast : j.val + 1 = n) (s : State) :
    readY (lowY j) (drawLanes n s) = (drawLanes n s).prng := by
  have hdrawn : (lowY j).val < 4 ∧ (lowY j).val < n := ⟨j.isLt, hlast ▸ Nat.lt_succ_self _⟩
  calc readY (lowY j) (drawLanes n s)
      = xorshift32^[j.val + 1] s.prng := by rw [readY_drawLanes, if_pos hdrawn]; rfl
    _ = (drawLanes n s).prng := by rw [hlast, drawLanes_prng n (hlast ▸ j.isLt)]

/-- Settles O39: each form is a loop of draws, one for each lane. -/
theorem nextuintResult : Obligations.NextuintResult := by
  intro i n h s
  obtain ⟨hlanes, hdecode, hexec⟩ := nextuintForms_eq h
  refine ⟨hdecode, drawLanes n s, hexec s, drawLanes_prng n hlanes s, fun j => ?_,
    fun j hlast => readY_lowY_drawLanes_last hlast s, exec_commandFrame (hexec s)⟩
  have hlow : j.val < 4 ∧ j.val < n ↔ j.val < n := and_iff_right_of_imp fun hj => hj.trans_le hlanes
  simp only [readY_drawLanes, hlow]

end Sys2Proof.Machine

/-! # Illegal commands: what is recorded and what is kept (60_exceptions.md R203) -/

namespace Sys2Proof.Machine

theorem runCommandWord_of_illegal {w : Word} {c : IllegalCause} (h : decode w = .illegal c) (s : State) :
    runCommandWord w s = .next (raiseIllegalCommand c s) := by
  simp only [runCommandWord, h]

/-- A CMD write of an illegal word: LASTCMD takes the word, the error is raised, and then the host is answered. -/
theorem step_of_illegalCmdWrite {s : State} {host : Nat} {w : Word} {rest : List PortEvent} {c : IllegalCause}
    (hp : s.pending = cmdWrite host w :: rest) (h : decode w = .illegal c) :
    step s = .next (respond (.writeDone host) (raiseIllegalCommand c (setLastcmd w (setPending rest s)))) := by
  rw [step_of_wordWrite hp registerAt_cmd, windowWrite, runCommandWord_of_illegal h, respondAfter]

/-- After an illegal command ERR is 1, whatever it was (60_exceptions.md R203, R204). -/
theorem recordIllegal_err (c : IllegalCause) (err : Bool) (cause : BitVec 4) : (recordIllegal c err cause).1 = true := by
  obtain ⟨-, hrec⟩ | ⟨-, hrec⟩ := recordIllegal_eq c err cause <;> rw [hrec]

theorem recordIllegal_cause_of_clear (c : IllegalCause) {err : Bool} (herr : err = false) (cause : BitVec 4) :
    (recordIllegal c err cause).2 = causeCode c := by
  rw [recordIllegal, if_pos herr]

theorem recordIllegal_cause_of_set (c : IllegalCause) {err : Bool} (herr : err = true) (cause : BitVec 4) :
    (recordIllegal c err cause).2 = cause := by
  rw [recordIllegal, if_neg (by simp [herr])]

/-- Settles O8: the step raises the error over LASTCMD, and raising it writes ERR and CAUSE alone. -/
theorem illegalCommandEffect : Obligations.IllegalCommandEffect := by
  intro s host w rest c hp hdecode
  refine ⟨_, step_of_illegalCmdWrite hp hdecode, rfl, rfl, rfl, rfl, ?err, fun hclear => ?recorded, fun hset => ?kept,
    rfl, rfl⟩
  case err => exact recordIllegal_err c s.err s.cause
  case recorded =>
    have hcause : (recordIllegal c s.err s.cause).2 = causeCode c := recordIllegal_cause_of_clear c hclear s.cause
    refine (congrArg BitVec.toNat hcause).trans ?_
    cases c <;> rfl
  case kept => exact recordIllegal_cause_of_set c hset s.cause

end Sys2Proof.Machine

/-! # Encoding and decoding are inverse to each other (30_encoding.md R73, R74, R80) -/

namespace Sys2Proof

/-! ## The fields of the selected command -/

/-- A word is its four fields put together: each bit stands in the one field that covers its place. -/
theorem packFields_commandFields (w : Word) : packFields (commandFields w) = w := by
  ext b hb
  simp only [packFields, commandFields, ← BitVec.getLsbD_eq_getElem, BitVec.getLsbD_or, BitVec.getLsbD_shiftLeft,
    BitVec.getLsbD_setWidth, BitVec.getLsbD_extractLsb']
  grind

/-- The lane field selects the form whose word holds that lane field. -/
theorem encodingFields_laneForm {op : BitVec 4} (nf : BitVec 2) {one two three four : Instr}
    (h1 : encodingFields one = ⟨op, 0, 0, 0⟩) (h2 : encodingFields two = ⟨op, 1, 0, 0⟩)
    (h3 : encodingFields three = ⟨op, 2, 0, 0⟩) (h4 : encodingFields four = ⟨op, 3, 0, 0⟩) :
    encodingFields (laneForm nf one two three four) = ⟨op, nf, 0, 0⟩ := by
  obtain rfl | rfl | rfl | rfl : nf = 0 ∨ nf = 1 ∨ nf = 2 ∨ nf = 3 := by revert nf; decide
  exacts [h1, h2, h3, h4]

/-- The row field selects the form whose word holds that row field, unless it asks for one row. -/
theorem encodingFields_rowForm {op : BitVec 4} {nf : BitVec 2} (hnf : nf ≠ 0) {cf : BitVec 2} {two three four : Instr}
    (h2 : encodingFields two = ⟨op, 1, cf, 0⟩) (h3 : encodingFields three = ⟨op, 2, cf, 0⟩)
    (h4 : encodingFields four = ⟨op, 3, cf, 0⟩) :
    encodingFields (rowForm nf two three four) = ⟨op, nf, cf, 0⟩ := by
  obtain rfl | rfl | rfl : nf = 1 ∨ nf = 2 ∨ nf = 3 := by revert nf; decide
  exacts [h2, h3, h4]

theorem encodingFields_hashForm {nf : BitVec 2} (hnf : nf ≠ 0) (cf : BitVec 2) :
    encodingFields (hashForm nf cf) = ⟨4, nf, cf, 0⟩ := by
  obtain rfl | rfl | rfl | rfl : cf = 0 ∨ cf = 1 ∨ cf = 2 ∨ cf = 3 := by revert cf; decide
  all_goals exact encodingFields_rowForm hnf rfl rfl rfl

theorem encodingFields_hashwideForm {nf : BitVec 2} (hnf : nf ≠ 0) (cf : BitVec 2) :
    encodingFields (hashwideForm nf cf) = ⟨5, nf, cf, 0⟩ := by
  obtain rfl | rfl | rfl | rfl : cf = 0 ∨ cf = 1 ∨ cf = 2 ∨ cf = 3 := by revert cf; decide
  all_goals exact encodingFields_rowForm hnf rfl rfl rfl

theorem assigned_op {op : BitVec 4} (h : op.toNat < 8) :
    op = 0 ∨ op = 1 ∨ op = 2 ∨ op = 3 ∨ op = 4 ∨ op = 5 ∨ op = 6 ∨ op = 7 := by
  revert op
  decide

/-- Fields that pass every test of the decoder are the fields of the command they select. -/
theorem encodingFields_selectCommand {f : CommandFields} (hop : f.op.toNat < 8) (hres : ¬ f.setsReservedField)
    (hrow : ¬ f.asksOneRow) : encodingFields (selectCommand f) = f := by
  obtain ⟨op, nf, cf, rsv⟩ := f
  simp only [CommandFields.setsReservedField, CommandFields.asksOneRow, not_or, not_and_or, not_not] at hres hrow
  obtain ⟨rfl, hcf, hnf⟩ := hres
  obtain rfl | rfl | rfl | rfl | rfl | rfl | rfl | rfl := assigned_op hop
  all_goals simp [opTakesShape] at hcf hnf hrow
  all_goals subst_vars
  · rfl
  · exact encodingFields_laneForm nf rfl rfl rfl rfl
  · exact encodingFields_laneForm nf rfl rfl rfl rfl
  · exact encodingFields_laneForm nf rfl rfl rfl rfl
  · exact encodingFields_hashForm hrow cf
  · exact encodingFields_hashwideForm hrow cf
  · rfl
  · exact encodingFields_laneForm nf rfl rfl rfl rfl

/-! ## The inverses -/

theorem decode_encode (i : Instr) : decode (encode i) = .legal i := by
  cases i <;> rfl

theorem commandFields_of_decode {w : Word} {i : Instr} (h : decode w = .legal i) :
    commandFields w = encodingFields i := by
  obtain ⟨-, hdec⟩ | ⟨-, -, hdec⟩ | ⟨-, -, -, hdec⟩ | ⟨hop, hres, hrow, hdec⟩ := decode_cases w
  case inr.inr.inr =>
    obtain rfl : selectCommand (commandFields w) = i := Decoded.legal.inj (hdec.symm.trans h)
    exact (encodingFields_selectCommand (not_le.1 hop) hres hrow).symm
  all_goals exact absurd (hdec.symm.trans h) (by simp)

/-- A word that decodes to a command is the command's own word. -/
theorem encode_of_decode {w : Word} {i : Instr} (h : decode w = .legal i) : encode i = w := by
  rw [encode, ← commandFields_of_decode h, packFields_commandFields]

theorem decode_eq_legal_iff (w : Word) (i : Instr) : decode w = .legal i ↔ encode i = w :=
  ⟨encode_of_decode, fun h => h ▸ decode_encode i⟩

theorem Instr.wellFormed_eq_true (i : Instr) : i.wellFormed = true := by
  cases i <;> rfl

/-- The operands of a command are those that the count fields of its word name (30_encoding.md R72). -/
theorem operands_encodingFields (i : Instr) : (encodingFields i).operands = i.operands := by
  cases i <;> rfl

end Sys2Proof

namespace Sys2Proof.Machine

theorem mem_allCommands (i : Instr) : i ∈ allCommands := by
  cases i <;> decide

/-- Settles O1: the fields that the decoder lets pass are the fields of the command it selects, and a word is its
fields. -/
theorem decodeEncodeAgree : Obligations.DecodeEncodeAgree :=
  ⟨fun i => ⟨i.wellFormed_eq_true, decode_encode i⟩, fun _ _ => encode_of_decode⟩

/-- Settles O2: the list is the words of the 42 commands in the order of the opcode table. -/
theorem legalWordsAreTheTable : Obligations.LegalWordsAreTheTable := by
  intro w
  have htable : w.toNat ∈ allCommands.map (fun i => (encode i).toNat) ↔ ∃ i, decode w = .legal i := by
    simp [decode_eq_legal_iff, mem_allCommands, BitVec.toNat_eq]
  exact htable.symm

/-- Settles O5: a decoded command's operands are those its word's count fields name, and the word of a command without
operands is its opcode. -/
theorem operandCountsFollowFields : Obligations.OperandCountsFollowFields := by
  intro w i h
  have hfields := commandFields_of_decode h
  rw [← operands_encodingFields i, ← hfields, CommandFields.operands, commandFields_nf_toNat, commandFields_cf_toNat]
  cases hnone : (commandFields w).takesNothing
  case true =>
    refine ⟨by simp, by simp, fun _ => ?_⟩
    have hword := toNat_eq_op_of_takesNothing h (hfields ▸ hnone)
    have hop : (encodingFields i).op = 0 ∨ (encodingFields i).op = 6 := by
      simpa [CommandFields.takesNothing, hfields] using hnone
    obtain hop | hop := hop <;> rw [hword, hop] <;> decide
  case false =>
    cases (commandFields w).takesShape <;> simp +contextual

/-- Settles O4: the decoder evaluated on the twelve words. -/
theorem decodeKnownWords : Obligations.DecodeKnownWords := by
  unfold Obligations.DecodeKnownWords
  decide

end Sys2Proof.Machine

/-! # The generator's update is invertible (44_prng.md R171, R172) -/

namespace Sys2Proof.Machine

/-! ## The shift-xor steps

Over GF(2) a left step is multiplication by `1 + L^k` with `L` the shift by one, so twice the step is the step of twice
the shift, and a step of 32 or more is the identity. The same holds to the right. -/

theorem xorShiftLeft_twice (k : Nat) (x : Word) : xorShiftLeft k (xorShiftLeft k x) = xorShiftLeft (k + k) x := by
  simp only [xorShiftLeft, BitVec.shiftLeft_xor_distrib, ← BitVec.shiftLeft_add]
  rw [BitVec.xor_assoc, ← BitVec.xor_assoc (x <<< k), BitVec.xor_self, BitVec.zero_xor]

theorem xorShiftRight_twice (k : Nat) (x : Word) : xorShiftRight k (xorShiftRight k x) = xorShiftRight (k + k) x := by
  simp only [xorShiftRight, BitVec.ushiftRight_xor_distrib, ← BitVec.shiftRight_add]
  rw [BitVec.xor_assoc, ← BitVec.xor_assoc (x >>> k), BitVec.xor_self, BitVec.zero_xor]

theorem xorShiftLeft_of_width_le {k : Nat} (hk : 32 ≤ k) (x : Word) : xorShiftLeft k x = x := by
  rw [xorShiftLeft, BitVec.shiftLeft_eq_zero hk, BitVec.xor_zero]

theorem xorShiftRight_of_width_le {k : Nat} (hk : 32 ≤ k) (x : Word) : xorShiftRight k x = x := by
  rw [xorShiftRight, BitVec.ushiftRight_eq_zero hk, BitVec.xor_zero]

/-- The terms of the left step by 5 undone: `(1 + L^5) (1 + L^10) (1 + L^20)`, with the term of `L^35` cut off. -/
theorem xorShiftLeft_5_10_20 (x : Word) : xorShiftLeft 20 (xorShiftLeft 10 (xorShiftLeft 5 x)) =
    x ^^^ (x <<< 5) ^^^ (x <<< 10) ^^^ (x <<< 15) ^^^ (x <<< 20) ^^^ (x <<< 25) ^^^ (x <<< 30) := by
  have hcut : x <<< 35 = 0#32 := BitVec.shiftLeft_eq_zero (by norm_num)
  simp only [xorShiftLeft, BitVec.shiftLeft_xor_distrib, ← BitVec.shiftLeft_add, Nat.reduceAdd]
  rw [hcut, BitVec.xor_zero]
  simp only [BitVec.xor_assoc]

theorem xorShiftLeft_13_26 (x : Word) : xorShiftLeft 26 (xorShiftLeft 13 x) = x ^^^ (x <<< 13) ^^^ (x <<< 26) := by
  have hcut : x <<< 39 = 0#32 := BitVec.shiftLeft_eq_zero (by norm_num)
  simp only [xorShiftLeft, BitVec.shiftLeft_xor_distrib, ← BitVec.shiftLeft_add, Nat.reduceAdd]
  rw [hcut, BitVec.xor_zero]

/-- The spec's inverse undoes the three steps, the last one first, each by steps that double its shift up to the
width. -/
theorem xorshift32Inv_eq (y : Word) : xorshift32Inv y =
    xorShiftLeft 26 (xorShiftLeft 13 (xorShiftRight 17 (xorShiftLeft 20 (xorShiftLeft 10 (xorShiftLeft 5 y))))) := by
  rw [xorShiftLeft_13_26, xorShiftLeft_5_10_20]
  rfl

/-! ## The update and its inverse -/

theorem xorshift32_leftInverse : Function.LeftInverse xorshift32Inv xorshift32 := by
  intro x
  rw [xorshift32Inv_eq, xorshift32,
    xorShiftLeft_twice 5, xorShiftLeft_twice 10, xorShiftLeft_twice 20,
    xorShiftLeft_of_width_le (k := 20 + 20) (by norm_num),
    xorShiftRight_twice 17, xorShiftRight_of_width_le (k := 17 + 17) (by norm_num),
    xorShiftLeft_twice 13, xorShiftLeft_twice 26, xorShiftLeft_of_width_le (k := 26 + 26) (by norm_num)]

theorem xorshift32_injective : Function.Injective xorshift32 := xorshift32_leftInverse.injective

/-- On finitely many words a left inverse is a right inverse. -/
theorem xorshift32_rightInverse : Function.RightInverse xorshift32Inv xorshift32 :=
  xorshift32_leftInverse.rightInverse_of_surjective (Finite.surjective_of_injective xorshift32_injective)

theorem xorshift32_zero : xorshift32 0 = 0 := rfl

theorem xorshift32_ne_zero {x : Word} (hx : x ≠ 0) : xorshift32 x ≠ 0 :=
  fun h => hx (xorshift32_injective (h.trans xorshift32_zero.symm))

theorem iterate_xorshift32_ne_zero {x : Word} (hx : x ≠ 0) (n : Nat) : xorshift32^[n] x ≠ 0 := by
  induction n with
  | zero => exact hx
  | succ n ih =>
    rw [Function.iterate_succ_apply']
    exact xorshift32_ne_zero ih

/-- Settles O40: the steps are the definition, the inverse undoes them, and 0 is reached from itself alone. -/
theorem updateIsInvertible : Obligations.UpdateIsInvertible :=
  ⟨fun _ => rfl, xorshift32_leftInverse, xorshift32_rightInverse, xorshift32_zero, fun _ => xorshift32_ne_zero⟩

end Sys2Proof.Machine

/-! # The period of the generator (44_prng.md R173)

The update is linear over GF(2). A polynomial over GF(2) of degree below 32 is kept as a word, the coefficient of `X^i`
in bit `i`, and stands for the linear map that it makes of the update. Powers of the update are then powers of `X`
modulo the update's characteristic polynomial. The period is 2^32 - 1 because `X` to that power is 1 while, for each
prime `p` that divides it, `X` to the `p`-th part of that power, less 1, is invertible. -/

namespace Sys2Proof.Machine

/-! ## Maps that are linear over GF(2) -/

/-- `f` is linear over GF(2): it keeps sums, which are xors. -/
def XorLinear (f : Word → Word) : Prop := ∀ x y, f (x ^^^ y) = f x ^^^ f y

namespace XorLinear

variable {f g : Word → Word}

theorem zero (hf : XorLinear f) : f 0 = 0 := by
  have h := hf 0 0
  rwa [BitVec.xor_self, BitVec.xor_self] at h

theorem comp (hf : XorLinear f) (hg : XorLinear g) : XorLinear (f ∘ g) := fun x y => by
  simp only [Function.comp_apply, hg x y, hf (g x) (g y)]

theorem iterate (hf : XorLinear f) : ∀ n, XorLinear f^[n]
  | 0 => fun _ _ => rfl
  | n + 1 => (hf.iterate n).comp hf

theorem xor (hf : XorLinear f) (hg : XorLinear g) : XorLinear fun x => f x ^^^ g x := fun x y => by
  simp only [hf x y, hg x y]
  ac_rfl

/-- Linear maps that agree on the 32 words with one bit set agree: take a word's bits away from the top. -/
theorem eq_of_basis (hf : XorLinear f) (hg : XorLinear g)
    (h : ∀ i < 32, f (BitVec.twoPow 32 i) = g (BitVec.twoPow 32 i)) (x : Word) : f x = g x := by
  suffices hbits : ∀ k ≤ 32, ∀ x : Word, (∀ i, k ≤ i → x.getLsbD i = false) → f x = g x from
    hbits 32 le_rfl x fun i hi => BitVec.getLsbD_of_ge x i hi
  intro k hk
  induction k with
  | zero =>
    intro x hx
    obtain rfl : x = 0 := BitVec.eq_of_getLsbD_eq fun i _ => by simp [hx i (Nat.zero_le i)]
    rw [hf.zero, hg.zero]
  | succ k ih =>
    intro x hx
    by_cases htop : x.getLsbD k = true
    · have hrest : f (x ^^^ BitVec.twoPow 32 k) = g (x ^^^ BitVec.twoPow 32 k) := by
        refine ih (by omega) _ fun i hi => ?_
        obtain rfl | hlt := hi.eq_or_lt
        · simp [htop, Nat.lt_of_succ_le hk]
        · simp [hx i hlt, BitVec.getLsbD_twoPow, hlt.ne]
      have hx' : x = x ^^^ BitVec.twoPow 32 k ^^^ BitVec.twoPow 32 k := by
        rw [BitVec.xor_assoc, BitVec.xor_self, BitVec.xor_zero]
      rw [hx', hf, hg, hrest, h k (by omega)]
    · refine ih (by omega) x fun i hi => ?_
      obtain rfl | hlt := hi.eq_or_lt
      · simpa using htop
      · exact hx i hlt

end XorLinear

theorem xorShiftLeft_linear (k : Nat) : XorLinear (xorShiftLeft k) := fun x y => by
  simp only [xorShiftLeft, BitVec.shiftLeft_xor_distrib]
  ac_rfl

theorem xorShiftRight_linear (k : Nat) : XorLinear (xorShiftRight k) := fun x y => by
  simp only [xorShiftRight, BitVec.ushiftRight_xor_distrib]
  ac_rfl

theorem xorshift32_linear : XorLinear xorshift32 :=
  (xorShiftLeft_linear 5).comp ((xorShiftRight_linear 17).comp (xorShiftLeft_linear 13))

/-! ## Polynomials of a linear map -/

/-- `p(f) x` for the low `n` coefficients of `p`. -/
def polyApply (f : Word → Word) : Nat → Word → Word → Word
  | 0, _, _ => 0
  | n + 1, p, x => (if p.getLsbD 0 then x else 0) ^^^ polyApply f n (p >>> 1) (f x)

/-- A linear map that carries `f` to `g` carries `p(f)` to `p(g)`. -/
theorem polyApply_map {φ f g : Word → Word} (hφ : XorLinear φ) (hcomm : ∀ x, φ (f x) = g (φ x)) (n : Nat) (p x : Word) :
    φ (polyApply f n p x) = polyApply g n p (φ x) := by
  induction n generalizing p x with
  | zero => exact hφ.zero
  | succ n ih =>
    rw [polyApply, polyApply, hφ, ih, hcomm, apply_ite φ, hφ.zero]

theorem polyApply_linear {f : Word → Word} (hf : XorLinear f) (n : Nat) (p : Word) : XorLinear (polyApply f n p) := by
  induction n generalizing p with
  | zero => exact fun _ _ => (BitVec.xor_self (x := 0)).symm
  | succ n ih =>
    intro x y
    rw [polyApply, polyApply, polyApply, hf, ih]
    cases p.getLsbD 0 <;> simp
    ac_rfl

theorem ite_xor (a b : Bool) (x : Word) :
    (if (a ^^ b) = true then x else 0) = (if a = true then x else 0) ^^^ (if b = true then x else 0) := by
  cases a <;> cases b <;> simp

theorem polyApply_linear_coeffs (f : Word → Word) (n : Nat) (x : Word) : XorLinear fun p => polyApply f n p x := by
  induction n generalizing x with
  | zero => exact fun _ _ => (BitVec.xor_self (x := 0)).symm
  | succ n ih =>
    intro p q
    have hrest := ih (f x) (p >>> 1) (q >>> 1)
    simp only [polyApply, BitVec.ushiftRight_xor_distrib, hrest, BitVec.getLsbD_xor, ite_xor]
    ac_rfl

theorem twoPow_shiftLeft_one (i : Nat) : BitVec.twoPow 32 i <<< 1 = BitVec.twoPow 32 (i + 1) := by
  rw [BitVec.twoPow_eq, BitVec.twoPow_eq, ← BitVec.shiftLeft_add]

theorem twoPow_shiftRight_one {i : Nat} (hi : i + 1 < 32) : BitVec.twoPow 32 (i + 1) >>> 1 = BitVec.twoPow 32 i := by
  ext j hj
  rw [← BitVec.getLsbD_eq_getElem, ← BitVec.getLsbD_eq_getElem, BitVec.getLsbD_ushiftRight, BitVec.getLsbD_twoPow,
    BitVec.getLsbD_twoPow]
  grind

/-- `X^i` makes of `f` its `i`-th iterate. -/
theorem polyApply_twoPow {f : Word → Word} {n i : Nat} (hn : n ≤ 32) (hi : i < n) (x : Word) :
    polyApply f n (BitVec.twoPow 32 i) x = f^[i] x := by
  induction n generalizing i x with
  | zero => omega
  | succ n ih =>
    rw [polyApply]
    cases i with
    | zero =>
      have hrest : BitVec.twoPow 32 0 >>> 1 = 0 := rfl
      rw [hrest, (polyApply_linear_coeffs f n (f x)).zero]
      simp
    | succ i =>
      rw [twoPow_shiftRight_one (by omega), ih (by omega) (by omega)]
      simp
/-! ## Polynomials of the update -/

/-- The update's characteristic polynomial less its term `X^32`: `X^32` is this polynomial of degree below 32. -/
def updatePoly : Word := 0x3EC241

/-- `X * p`, reduced by the characteristic polynomial. -/
def mulX (p : Word) : Word := (p <<< 1) ^^^ if p.msb then updatePoly else 0

/-- `p * q`, reduced: the polynomial `p` of the map `mulX`, applied to `q`. -/
def polyMul (p q : Word) : Word := polyApply mulX 32 p q

/-- `X^n`, reduced, by squaring; `fuel` bounds the number of bits of `n`. -/
def polyPow : Nat → Nat → Word
  | 0, _ => 1
  | fuel + 1, n =>
    let half := polyPow fuel (n / 2)
    if n % 2 = 1 then mulX (polyMul half half) else polyMul half half

/-- The map that a polynomial makes of the update. -/
def polyUpdate (p x : Word) : Word := polyApply xorshift32 32 p x

theorem polyUpdate_linear (p : Word) : XorLinear (polyUpdate p) := polyApply_linear xorshift32_linear 32 p

theorem polyUpdate_linear_coeffs (x : Word) : XorLinear fun p => polyUpdate p x :=
  polyApply_linear_coeffs xorshift32 32 x

theorem polyUpdate_xor (p q x : Word) : polyUpdate (p ^^^ q) x = polyUpdate p x ^^^ polyUpdate q x :=
  polyUpdate_linear_coeffs x p q

theorem polyUpdate_one (x : Word) : polyUpdate 1 x = x := polyApply_twoPow (i := 0) le_rfl (by norm_num) x

theorem mulX_linear : XorLinear mulX := fun p q => by
  simp only [mulX, BitVec.shiftLeft_xor_distrib, BitVec.msb_xor, ite_xor]
  ac_rfl

/-- The characteristic polynomial vanishes on the update (Cayley and Hamilton): evaluated on the basis. -/
theorem polyUpdate_updatePoly (x : Word) : polyUpdate updatePoly x = xorshift32^[32] x := by
  have hbasis : ∀ i : Fin 32, polyUpdate updatePoly (BitVec.twoPow 32 i) = xorshift32^[32] (BitVec.twoPow 32 i) := by
    decide
  exact (polyUpdate_linear updatePoly).eq_of_basis (xorshift32_linear.iterate 32) (fun i hi => hbasis ⟨i, hi⟩) x

/-- Multiplication by `X` is the update: both sides are linear in `p`, and of the `X^i` only `X^31` makes a term to
reduce. -/
theorem polyUpdate_mulX (p x : Word) : polyUpdate (mulX p) x = xorshift32 (polyUpdate p x) := by
  refine XorLinear.eq_of_basis (f := fun p => polyUpdate (mulX p) x) (g := fun p => xorshift32 (polyUpdate p x))
    ((polyUpdate_linear_coeffs x).comp mulX_linear) (xorshift32_linear.comp (polyUpdate_linear_coeffs x))
    (fun i hi => ?_) p
  have hpow : polyUpdate (BitVec.twoPow 32 i) x = xorshift32^[i] x := polyApply_twoPow le_rfl hi x
  simp only [hpow, ← Function.iterate_succ_apply' xorshift32]
  obtain hlt | rfl : i + 1 < 32 ∨ i = 31 := by omega
  · have hmsb : (BitVec.twoPow 32 i).msb = false := by
      simp [BitVec.msb_eq_getLsbD_last]
      omega
    have hshift : mulX (BitVec.twoPow 32 i) = BitVec.twoPow 32 (i + 1) := by
      simp [mulX, hmsb, twoPow_shiftLeft_one]
    rw [hshift]
    exact polyApply_twoPow le_rfl hlt x
  · have hreduce : mulX (BitVec.twoPow 32 31) = updatePoly := rfl
    rw [hreduce, polyUpdate_updatePoly]

/-- The product of polynomials is the composition of their maps. -/
theorem polyUpdate_polyMul (p q x : Word) : polyUpdate (polyMul p q) x = polyUpdate p (polyUpdate q x) :=
  polyApply_map (polyUpdate_linear_coeffs x) (fun q => polyUpdate_mulX q x) 32 p q

theorem polyUpdate_polyPow {fuel n : Nat} (hn : n < 2 ^ fuel) (x : Word) :
    polyUpdate (polyPow fuel n) x = xorshift32^[n] x := by
  induction fuel generalizing n x with
  | zero =>
    obtain rfl : n = 0 := by omega
    exact polyUpdate_one x
  | succ fuel ih =>
    have hhalf : n / 2 < 2 ^ fuel := by omega
    have hsquare : polyUpdate (polyMul (polyPow fuel (n / 2)) (polyPow fuel (n / 2))) x =
        xorshift32^[n / 2 + n / 2] x := by
      rw [polyUpdate_polyMul, ih hhalf, ih hhalf, Function.iterate_add_apply]
    rw [polyPow]
    by_cases hodd : n % 2 = 1
    · rw [if_pos hodd, polyUpdate_mulX, hsquare, ← Function.iterate_succ_apply' xorshift32]
      congr 2
      omega
    · rw [if_neg hodd, hsquare]
      congr 2
      omega

/-! ## The order of `X`

The two computations on polynomials are evaluated by the kernel. -/

/-- `X^(2^32 - 1) = 1`, by 32 squarings. -/
theorem polyPow_period : polyPow 32 (2 ^ 32 - 1) = 1 := by decide +kernel

/-- The prime factors of 2^32 - 1, each with the inverse of `X^((2^32 - 1) / p) - 1`. -/
def periodFactors : List (Nat × Word) :=
  [(3, 0x9A1B191D), (5, 0x256DAA81), (17, 0x552BD776), (257, 0xAC9B5802), (65537, 0xD1472012)]

/-- The inverses are inverses. -/
theorem polyPow_part : ∀ c ∈ periodFactors, polyMul c.2 (polyPow 32 ((2 ^ 32 - 1) / c.1) ^^^ 1) = 1 := by
  decide +kernel

theorem iterate_period (x : Word) : xorshift32^[2 ^ 32 - 1] x = x := by
  rw [← polyUpdate_polyPow (fuel := 32) (by norm_num), polyPow_period, polyUpdate_one]

/-- No part of the period by a prime factor returns a word but 0: the map `X^((2^32 - 1) / p) - 1` is injective. -/
theorem iterate_part_ne {c : Nat × Word} (hc : c ∈ periodFactors) {x : Word} (hx : x ≠ 0) :
    xorshift32^[(2 ^ 32 - 1) / c.1] x ≠ x := by
  intro hfix
  have hlt : (2 ^ 32 - 1) / c.1 < 2 ^ 32 := (Nat.div_le_self _ _).trans_lt (by norm_num)
  have hvanish : polyUpdate (polyPow 32 ((2 ^ 32 - 1) / c.1) ^^^ 1) x = 0 := by
    rw [polyUpdate_xor, polyUpdate_polyPow hlt, hfix, polyUpdate_one, BitVec.xor_self]
    rfl
  apply hx
  rw [← polyUpdate_one x, ← polyPow_part c hc, polyUpdate_polyMul, hvanish, (polyUpdate_linear c.2).zero]

theorem prime_dvd_period {p : Nat} (hp : p.Prime) (h : p ∣ 2 ^ 32 - 1) : ∃ c ∈ periodFactors, c.1 = p := by
  have hprimes : ∀ c ∈ periodFactors, c.1.Prime := by
    simp only [periodFactors, List.forall_mem_cons]
    norm_num
  have hfactors : 2 ^ 32 - 1 = (periodFactors.map Prod.fst).prod := by decide
  rw [hfactors, hp.prime.dvd_prod_iff] at h
  obtain ⟨_, hq, hdvd⟩ := h
  obtain ⟨c, hc, rfl⟩ := List.mem_map.1 hq
  exact ⟨c, hc, ((Nat.prime_dvd_prime_iff_eq hp (hprimes c hc)).1 hdvd).symm⟩

/-- The minimal period divides 2^32 - 1, and if it were smaller it would divide a part of it by a prime. -/
theorem minimalPeriod_xorshift32 {x : Word} (hx : x ≠ 0) : Function.minimalPeriod xorshift32 x = 2 ^ 32 - 1 := by
  obtain ⟨a, ha⟩ : Function.minimalPeriod xorshift32 x ∣ 2 ^ 32 - 1 :=
    Function.IsPeriodicPt.minimalPeriod_dvd (iterate_period x)
  by_cases hone : a = 1
  · rw [ha, hone, Nat.mul_one]
  · obtain ⟨c, hc, hprime⟩ := prime_dvd_period (Nat.minFac_prime hone) (ha ▸ (Nat.minFac_dvd a).mul_left _)
    refine absurd ?_ (iterate_part_ne hc hx)
    rw [hprime, ha, Nat.mul_div_assoc _ (Nat.minFac_dvd a)]
    exact (Function.isPeriodicPt_minimalPeriod xorshift32 x).mul_const _

theorem iterate_eq_self_iff {x : Word} (hx : x ≠ 0) (n : Nat) : xorshift32^[n] x = x ↔ (2 ^ 32 - 1) ∣ n := by
  rw [← minimalPeriod_xorshift32 hx]
  exact Function.isPeriodicPt_iff_minimalPeriod_dvd

/-- The 2^32 - 1 words before the first return differ and are not 0, and there are no more words than that. -/
theorem exists_iterate_eq {x y : Word} (hx : x ≠ 0) (hy : y ≠ 0) : ∃ n, n < 2 ^ 32 - 1 ∧ xorshift32^[n] x = y := by
  have hpos {z : Word} (hz : z ≠ 0) : z.toNat ∈ Finset.Ico 1 (2 ^ 32) :=
    Finset.mem_Ico.2 ⟨Nat.one_le_iff_ne_zero.2 fun h => hz (BitVec.eq_of_toNat_eq h), z.isLt⟩
  have hsurj : Set.SurjOn (fun n => (xorshift32^[n] x).toNat) (Finset.range (2 ^ 32 - 1)) (Finset.Ico 1 (2 ^ 32)) := by
    refine Finset.surjOn_of_injOn_of_card_le _ (fun n _ => hpos (iterate_xorshift32_ne_zero hx n))
      (fun m hm n hn h => ?_) ?_
    · rw [Finset.coe_range, ← minimalPeriod_xorshift32 hx] at hm hn
      exact Function.iterate_injOn_Iio_minimalPeriod hm hn (BitVec.eq_of_toNat_eq h)
    · rw [Nat.card_Ico, Finset.card_range]
  obtain ⟨n, hn, heq⟩ := hsurj (hpos hy)
  exact ⟨n, Finset.mem_range.1 hn, BitVec.eq_of_toNat_eq heq⟩

/-- Settles O41: the minimal period of every word but 0 is 2^32 - 1, and so many words there are. -/
theorem generatorHasFullPeriod : Obligations.GeneratorHasFullPeriod :=
  ⟨fun _ n hx => iterate_eq_self_iff hx n, fun _ _ => exists_iterate_eq⟩

end Sys2Proof.Machine

/-! # NEXTUINT: the draws as iterates of the update (44_prng.md R173, R177 to R179) -/

namespace Sys2Proof.Machine

theorem xorshift32_ne_self {x : Word} (hx : x ≠ 0) : xorshift32 x ≠ x := by
  intro h
  have hdvd : (2 ^ 32 - 1) ∣ 1 := (iterate_eq_self_iff hx 1).1 h
  norm_num at hdvd

theorem pos_of_mem_nextuintForms {i : Instr} {n : Nat} (h : (i, n) ∈ nextuintForms) : 0 < n := by
  revert h
  simp only [nextuintForms, List.mem_cons, Prod.mk.injEq, List.not_mem_nil, or_false]
  omega

theorem eq_drawLanes_of_exec {i : Instr} {n : Nat} (h : (i, n) ∈ nextuintForms) {s t : State}
    (hexec : exec i s = .next t) :    t = drawLanes n s := by
  obtain ⟨-, -, hmeaning⟩ := nextuintForms_eq h
  simpa using hexec.symm.trans (hmeaning s)

theorem readY_lowY_drawLanes {n : Nat} {j : Fin 4} (hj : j.val < n) (s : State) :
    readY (lowY j) (drawLanes n s) = xorshift32^[j.val + 1] s.prng := by
  rw [readY_drawLanes, if_pos ⟨j.isLt, hj⟩]
  rfl

/-- Settles O42: the lanes are iterates of the update from a state that is not 0, and no iterate is 0 or fixed. -/
theorem drawsAreNeverZeroOrRepeated : Obligations.DrawsAreNeverZeroOrRepeated := by
  rintro i n h s t ⟨hlive, -⟩ hexec
  obtain rfl := eq_drawLanes_of_exec h hexec
  refine ⟨?_, fun j hj => ?_, fun j j' hnext hj' => ?_⟩
  · have hfirst : readY 0 (drawLanes n s) = xorshift32 s.prng :=
      readY_lowY_drawLanes (j := 0) (pos_of_mem_nextuintForms h) s
    rw [hfirst]
    exact xorshift32_ne_self hlive
  · rw [readY_lowY_drawLanes hj]
    exact iterate_xorshift32_ne_zero hlive _
  · have hupdate : readY (lowY j') (drawLanes n s) = xorshift32 (readY (lowY j) (drawLanes n s)) := by
      rw [readY_lowY_drawLanes hj', readY_lowY_drawLanes (by omega), hnext, Function.iterate_succ_apply']
    refine ⟨hupdate, ?_⟩
    rw [hupdate, readY_lowY_drawLanes (by omega)]
    exact xorshift32_ne_self (iterate_xorshift32_ne_zero hlive _)

/-- Scalar draws in a row: `S` is updated once by each, and the last one drawn is in `Y[0]`. -/
theorem scalar_draws {n : Nat} {u : Nat → State} (hu : ∀ k, k < n → exec .nextuint_1 (u k) = .next (u (k + 1)))
    {k : Nat} (hk : k ≤ n) : (u k).prng = xorshift32^[k] (u 0).prng := by
  induction k with
  | zero => rfl
  | succ k ih =>
    rw [eq_drawLanes_of_exec (n := 1) (by decide) (hu k hk), drawLanes_prng 1 (by norm_num), ih (by omega),
      Function.iterate_succ_apply' xorshift32 k]
    rfl

/-- Settles O43: both ways of drawing give the iterates of the update. -/
theorem vectorDrawEqualsScalarDraws : Obligations.VectorDrawEqualsScalarDraws := by
  rintro i n h s t u rfl hu hexec
  obtain rfl := eq_drawLanes_of_exec h hexec
  obtain ⟨hlanes, -, -⟩ := nextuintForms_eq h
  refine ⟨by rw [drawLanes_prng n hlanes, scalar_draws hu le_rfl], fun j hj => ?_⟩
  have hscalar : readY 0 (u (j.val + 1)) = xorshift32 (u j.val).prng := by
    rw [eq_drawLanes_of_exec (n := 1) (by decide) (hu j.val hj)]
    exact readY_lowY_drawLanes (j := 0) Nat.one_pos _
  rw [readY_lowY_drawLanes hj, hscalar, scalar_draws hu hj.le, Function.iterate_succ_apply']

/-! ## Reproducibility -/

theorem namedResults_nextuint {i : Instr} {n : Nat} (h : (i, n) ∈ nextuintForms) :
    namedResults i = (lanes n).map lowY := by
  simp only [nextuintForms, List.mem_cons, Prod.mk.injEq, List.not_mem_nil, or_false] at h
  obtain ⟨rfl, rfl⟩ | ⟨rfl, rfl⟩ | ⟨rfl, rfl⟩ | ⟨rfl, rfl⟩ := h <;> rfl

/-- From states with the same `S`, the same draws leave the same `S` and the same value in every register drawn, and in
every register that held the same value before. -/
theorem execAll_draws_agree {l : List Instr} (hl : ∀ i ∈ l, ∃ n, (i, n) ∈ nextuintForms) {s s' t t' : State}
    (hprng : s.prng = s'.prng) (ht : execAll l s = .next t) (ht' : execAll l s' = .next t') :
    t.prng = t'.prng ∧ ∀ j, (readY j s = readY j s' ∨ ∃ i ∈ l, j ∈ namedResults i) → readY j t = readY j t' := by
  induction l generalizing s s' with
  | nil =>
    cases ht
    cases ht'
    exact ⟨hprng, fun j hj => by simpa using hj⟩
  | cons i l ih =>
    obtain ⟨n, hn⟩ := hl i List.mem_cons_self
    obtain ⟨hlanes, -, hmeaning⟩ := nextuintForms_eq hn
    simp only [execAll, hmeaning] at ht ht'
    have hdrawn : (drawLanes n s).prng = (drawLanes n s').prng := by
      rw [drawLanes_prng n hlanes, drawLanes_prng n hlanes, hprng]
    obtain ⟨hS, hY⟩ := ih (fun i hi => hl i (List.mem_cons_of_mem _ hi)) hdrawn ht ht'
    refine ⟨hS, fun j hj => hY j ?_⟩
    have hread : j ∈ (lanes n).map lowY ∨ readY j s = readY j s' →
        readY j (drawLanes n s) = readY j (drawLanes n s') := by
      rw [mem_lowY_lanes, readY_drawLanes, readY_drawLanes, hprng]
      rintro (hmem | heq)
      · rw [if_pos hmem, if_pos hmem]
      · rw [heq]
    obtain heq | ⟨i', hi', hj⟩ := hj
    · exact .inl (hread (.inr heq))
    · obtain rfl | hi' := List.mem_cons.1 hi'
      · exact .inl (hread (.inl (namedResults_nextuint hn ▸ hj)))
      · exact .inr ⟨i', hi', hj⟩

/-- Settles O45: SEED makes `S` the same in both blocks, and the draws keep it so. -/
theorem seededDrawsAreReproducible : Obligations.SeededDrawsAreReproducible := by
  intro l s s' t t' hl hseed ht ht'
  simp only [execAll, exec_seed] at ht ht'
  obtain ⟨hS, hY⟩ := execAll_draws_agree hl (congrArg seedValue hseed) ht ht'
  exact ⟨hS, fun j hj => hY j (.inr hj)⟩

/-- Settles O44: SEED and the eight draws evaluated. -/
theorem pinnedDraws : Obligations.PinnedDraws :=
  ⟨_, _, _, rfl, by decide, rfl, rfl, by decide⟩

end Sys2Proof.Machine

/-! # What a step does to STATUS, to the generator and to the port -/

namespace Sys2Proof.Machine

/-! ## The register at an offset, said once (20_memory.md R53, R54) -/

theorem registerAt_of_misaligned {offset : BitVec 8} (h : offset.toNat % 4 ≠ 0) : registerAt offset = none := by
  simp [registerAt, h]

theorem registerAt_of_unmapped {offset : BitVec 8} (h : 0x6C ≤ offset.toNat) : registerAt offset = none := by
  have ha : ¬ offset.toNat < 0x40 := by omega
  have hy : ¬ offset.toNat < 0x60 := by omega
  have hp : offset.toNat ≠ 0x60 := by omega
  have hc : offset.toNat ≠ 0x64 := by omega
  have hs : offset.toNat ≠ 0x68 := by omega
  simp [registerAt, ha, hy, hp, hc, hs]

/-- Everything that `registerAt` answers. -/
theorem registerAt_cases (offset : BitVec 8) :
    (registerAt offset = none ∧ (offset.toNat % 4 ≠ 0 ∨ 0x6C ≤ offset.toNat)) ∨
    (∃ i : Fin 16, registerAt offset = some (.a i) ∧ offset.toNat = 4 * i.val) ∨
    (∃ j : Fin 8, registerAt offset = some (.y j) ∧ offset.toNat = 0x40 + 4 * j.val) ∨
    (registerAt offset = some .prngState ∧ offset = 0x60) ∨
    (registerAt offset = some .cmd ∧ offset = 0x64) ∨
    (registerAt offset = some .status ∧ offset = 0x68) := by
  by_cases halign : offset.toNat % 4 ≠ 0
  · exact .inl ⟨registerAt_of_misaligned halign, .inl halign⟩
  have hcases : 0x6C ≤ offset.toNat ∨ offset.toNat < 0x40 ∨ (0x40 ≤ offset.toNat ∧ offset.toNat < 0x60) ∨
      offset.toNat = 0x60 ∨ offset.toNat = 0x64 ∨ offset.toNat = 0x68 := by
    omega
  obtain h | h | h | h | h | h := hcases
  · exact .inl ⟨registerAt_of_unmapped h, .inr h⟩
  · have ho : offset.toNat = 4 * (⟨offset.toNat / 4, by omega⟩ : Fin 16).val := by simp only; omega
    exact .inr (.inl ⟨_, registerAt_a ho, ho⟩)
  · have ho : offset.toNat = 0x40 + 4 * (⟨(offset.toNat - 0x40) / 4, by omega⟩ : Fin 8).val := by simp only; omega
    exact .inr (.inr (.inl ⟨_, registerAt_y ho, ho⟩))
  · obtain rfl : offset = 0x60 := BitVec.eq_of_toNat_eq h
    exact .inr (.inr (.inr (.inl ⟨rfl, rfl⟩)))
  · obtain rfl : offset = 0x64 := BitVec.eq_of_toNat_eq h
    exact .inr (.inr (.inr (.inr (.inl ⟨rfl, rfl⟩))))
  · obtain rfl : offset = 0x68 := BitVec.eq_of_toNat_eq h
    exact .inr (.inr (.inr (.inr (.inr ⟨rfl, rfl⟩))))

theorem offset_of_registerAt_status {offset : BitVec 8} (h : registerAt offset = some .status) : offset = 0x68 := by
  obtain ⟨hr, -⟩ | ⟨i, hr, -⟩ | ⟨j, hr, -⟩ | ⟨hr, -⟩ | ⟨hr, -⟩ | ⟨-, ho⟩ := registerAt_cases offset
  case inr.inr.inr.inr.inr => exact ho
  all_goals exact absurd (hr.symm.trans h) (by simp)

/-! ## Running a command word -/

/-- What a command word can do to STATUS: nothing, or record the cause of an illegal word over a clear ERR. -/
theorem runCommandWord_status {w : Word} {s t : State} (h : runCommandWord w s = .next t) :
    (t.err = s.err ∧ t.cause = s.cause) ∨ (s.err = false ∧ t.err = true ∧ ∃ c, t.cause = causeCode c) := by
  obtain ⟨i, -, hrun⟩ | ⟨c, -, hrun⟩ := runCommandWord_eq w s
  · obtain ⟨-, -, herr, hcause, -, -⟩ := exec_commandFrame (hrun.symm.trans h)
    exact .inl ⟨herr, hcause⟩
  · obtain rfl : raiseIllegalCommand c s = t := by simpa [hrun] using h
    rw [raiseIllegalCommand_err, raiseIllegalCommand_cause]
    obtain ⟨hclear, hrec⟩ | ⟨hset, hrec⟩ := recordIllegal_eq c s.err s.cause
    · exact .inr ⟨hclear, by rw [hrec], c, by rw [hrec]⟩
    · exact .inl ⟨by rw [hrec, hset], by rw [hrec]⟩

theorem seedValue_ne_zero (v : Word) : seedValue v ≠ 0 := by
  unfold seedValue
  split
  · decide
  · assumption

theorem exec_keeps_generatorLive {i : Instr} {s t : State} (h : exec i s = .next t) (hlive : generatorLive s) :
    generatorLive t := by
  by_cases hseed : i = .seed
  · subst hseed
    obtain rfl : _ = t := by simpa [exec_seed] using h
    exact seedValue_ne_zero _
  by_cases hdraw : ∃ n, (i, n) ∈ nextuintForms
  · obtain ⟨n, hn⟩ := hdraw
    obtain ⟨hlanes, -, -⟩ := nextuintForms_eq hn
    rw [generatorLive, eq_drawLanes_of_exec hn h, drawLanes_prng n hlanes]
    exact iterate_xorshift32_ne_zero hlive n
  · rw [generatorLive, exec_keeps_prng h hseed (not_exists.1 hdraw)]
    exact hlive

theorem runCommandWord_keeps_generatorLive {w : Word} {s t : State} (h : runCommandWord w s = .next t)
    (hlive : generatorLive s) : generatorLive t := by
  obtain ⟨i, -, hrun⟩ | ⟨c, -, hrun⟩ := runCommandWord_eq w s
  · exact exec_keeps_generatorLive (hrun.symm.trans h) hlive
  · obtain rfl : raiseIllegalCommand c s = t := by simpa [hrun] using h
    exact hlive

/-- A command word reaches neither the port's events nor its responses. -/
theorem runCommandWord_port {w : Word} {s t : State} (h : runCommandWord w s = .next t) :
    t.pending = s.pending ∧ t.replies = s.replies := by
  obtain ⟨i, -, hrun⟩ | ⟨c, -, hrun⟩ := runCommandWord_eq w s
  · obtain ⟨-, -, -, -, hpending, hreplies⟩ := exec_commandFrame (hrun.symm.trans h)
    exact ⟨hpending, hreplies⟩
  · obtain rfl : raiseIllegalCommand c s = t := by simpa [hrun] using h
    exact ⟨rfl, rfl⟩

/-! ## Steps -/

/-- The oldest event clears the error record: a reset, or a STATUS write with bit 0 set (60_exceptions.md R205). -/
def ClearsStatus (e : PortEvent) : Prop :=
  e = .reset ∨ ∃ acc v, e = .access acc ∧ acc.offset = 0x68 ∧ acc.op = .write v ∧ v.toNat % 2 = 1

/-- What a step that goes on does to STATUS: nothing, or record an illegal command over a clear ERR, or clear the
record. -/
theorem step_status {s t : State} (h : step s = .next t) :
    (t.err = s.err ∧ t.cause = s.cause) ∨
    (s.err = false ∧ t.err = true ∧ ∃ c, t.cause = causeCode c) ∨
    (t.err = false ∧ t.cause = 0 ∧ ∃ e ∈ s.pending, ClearsStatus e) := by
  obtain ⟨-, rfl⟩ | ⟨rest, hp, rfl⟩ | ⟨acc, rest, hp, hacc⟩ := step_next h
  · exact .inl ⟨rfl, rfl⟩
  · exact .inr (.inr ⟨rfl, rfl, .reset, by simp [hp], .inl rfl⟩)
  · obtain ⟨-, hcases⟩ := performAccess_next hacc
    obtain ⟨r, -, -, rfl⟩ | ⟨i, v, -, -, rfl⟩ | ⟨w, u, -, -, hrun, rfl⟩ | ⟨v, hr, hop, rfl⟩ := hcases
    · exact .inl ⟨rfl, rfl⟩
    · exact .inl ⟨rfl, rfl⟩
    · exact (runCommandWord_status hrun).imp_right .inl
    · rw [respond_err, respond_cause]
      obtain heven | hodd := Nat.mod_two_eq_zero_or_one v.toNat
      · rw [writeStatus_of_even heven]
        exact .inl ⟨rfl, rfl⟩
      · rw [writeStatus_of_odd hodd]
        have hclears : ClearsStatus (.access acc) := .inr ⟨acc, v, rfl, offset_of_registerAt_status hr, hop, hodd⟩
        exact .inr (.inr ⟨rfl, rfl, _, by simp [hp], hclears⟩)

theorem step_keeps_generatorLive {s t : State} (h : step s = .next t) (hlive : generatorLive s) : generatorLive t := by
  obtain ⟨-, rfl⟩ | ⟨rest, -, rfl⟩ | ⟨acc, rest, -, hacc⟩ := step_next h
  · exact hlive
  · exact (by decide : Config.seedZeroSubst ≠ 0)
  · obtain ⟨-, hcases⟩ := performAccess_next hacc
    obtain ⟨r, -, -, rfl⟩ | ⟨i, v, -, -, rfl⟩ | ⟨w, u, -, -, hrun, rfl⟩ | ⟨v, -, -, rfl⟩ := hcases
    · exact hlive
    · exact hlive
    · exact (runCommandWord_keeps_generatorLive hrun hlive :)
    · exact hlive

/-- A step takes the oldest event from the port and gives at most one response. -/
theorem step_port {s t : State} (h : step s = .next t) :
    t.pending = s.pending.tail ∧ ∃ l, t.replies = l ++ s.replies ∧ l.length ≤ 1 := by
  obtain ⟨hp, rfl⟩ | ⟨rest, hp, rfl⟩ | ⟨acc, rest, hp, hacc⟩ := step_next h
  · exact ⟨by simp [hp], [], rfl, Nat.zero_le 1⟩
  · exact ⟨by simp [hp], [], rfl, Nat.zero_le 1⟩
  · rw [hp, List.tail_cons]
    obtain ⟨-, hcases⟩ := performAccess_next hacc
    obtain ⟨r, -, -, rfl⟩ | ⟨i, v, -, -, rfl⟩ | ⟨w, u, -, -, hrun, rfl⟩ | ⟨v, -, -, rfl⟩ := hcases
    · exact ⟨rfl, [_], rfl, le_rfl⟩
    · exact ⟨rfl, [_], rfl, le_rfl⟩
    · obtain ⟨hpending, hreplies⟩ := runCommandWord_port hrun
      exact ⟨hpending, [_], by rw [respond_replies, hreplies]; rfl, le_rfl⟩
    · exact ⟨rfl, [_], rfl, le_rfl⟩

/-! ## The invariant and the reset state -/

theorem causeCode_legal (c : IllegalCause) : (causeCode c).toNat ≤ 3 ∧ causeCode c ≠ 0 := by
  cases c <;> decide

theorem step_keeps_statusLegal {s t : State} (h : step s = .next t) (hlegal : statusLegal s) : statusLegal t := by
  obtain ⟨herr, hcause⟩ | ⟨-, herr, c, hcause⟩ | ⟨herr, hcause, -⟩ := step_status h
  · rw [statusLegal, herr, hcause]
    exact hlegal
  · obtain ⟨hle, hne⟩ := causeCode_legal c
    rw [statusLegal, herr, hcause]
    exact ⟨hle, iff_of_false (by simp) hne⟩
  · rw [statusLegal, herr, hcause]
    decide

/-- Settles O12: the two parts of the invariant, each kept by every step. -/
theorem stepKeepsSoundState : Obligations.StepKeepsSoundState :=
  fun _ _ ⟨hlive, hlegal⟩ hstep => ⟨step_keeps_generatorLive hstep hlive, step_keeps_statusLegal hstep hlegal⟩

/-- Settles O13: the reset values evaluated. -/
theorem resetIsSound : Obligations.ResetIsSound := by
  unfold Obligations.ResetIsSound
  decide

/-- A reset event sets the whole block to the reset state and keeps the port's surroundings (log 7). -/
theorem step_of_reset {s : State} {rest : List PortEvent} (hp : s.pending = .reset :: rest) :
    step s = .next (resetBlock (setPending rest s)) := by
  simp only [step, portStep, hp]

/-- Settles O14: the reset values read off, at power-on and after a reset event. -/
theorem resetSetsEveryRegister : Obligations.ResetSetsEveryRegister :=
  ⟨readA_reset, readY_reset, rfl, rfl, rfl, rfl, fun _ _ hp =>
    ⟨_, step_of_reset hp, ⟨rfl, rfl, rfl, rfl, rfl, rfl⟩, rfl, rfl⟩⟩

end Sys2Proof.Machine

/-! # Runs of the port (20_memory.md R55, R64, 60_exceptions.md R200, R205, R210) -/

namespace Sys2Proof.Machine

/-! ## Accesses, a case at a time (20_memory.md R55 to R57) -/

theorem performAccess_of_width {acc : Access} (h : acc.width ≠ .bytes 4) (s : State) :
    performAccess acc s = .fault .busError := by
  rw [performAccess, if_neg h]

theorem performAccess_of_unmapped {acc : Access} (h : registerAt acc.offset = none) (s : State) :
    performAccess acc s = .fault .busError := by
  simp [performAccess, h]

theorem performAccess_of_read {acc : Access} {r : WindowReg} (hwidth : acc.width = .bytes 4)
    (hr : registerAt acc.offset = some r) (hop : acc.op = .read) (s : State) :
    performAccess acc s = .next (respond (.readData acc.host (windowRead r s)) s) := by
  simp [performAccess, hwidth, hr, hop]

theorem performAccess_of_write {acc : Access} {r : WindowReg} {v : Word} (hwidth : acc.width = .bytes 4)
    (hr : registerAt acc.offset = some r) (hop : acc.op = .write v) (s : State) :
    performAccess acc s = respondAfter (.writeDone acc.host) (windowWrite r v s) := by
  simp [performAccess, hwidth, hr, hop]

/-- The registers that a host may not write (20_memory.md R55 d, e). -/
def WindowReg.readOnly : WindowReg → Bool
  | .y _ | .prngState => true
  | .a _ | .cmd | .status => false

theorem windowWrite_of_readOnly {r : WindowReg} (h : r.readOnly = true) (v : Word) (s : State) :
    windowWrite r v s = .fault .busError := by
  cases r with
  | y | prngState => rfl
  | a | cmd | status => simp [WindowReg.readOnly] at h

theorem windowWrite_of_writable {r : WindowReg} (h : r.readOnly = false) (v : Word) (s : State) :
    ∃ t, windowWrite r v s = .next t := by
  cases r with
  | a | status => exact ⟨_, rfl⟩
  | cmd =>
    obtain ⟨t, hrun, -⟩ := runCommandWord_keeps_lastcmd v (setLastcmd v s)
    exact ⟨t, hrun⟩
  | y | prngState => simp [WindowReg.readOnly] at h

/-! ## Bus errors -/

/-- The conditions (a) to (e) of 20_memory.md R55. -/
def IsBusError (acc : Access) : Prop :=
  acc.width ≠ .bytes 4 ∨ acc.offset.toNat % 4 ≠ 0 ∨ 0x6C ≤ acc.offset.toNat ∨
    (acc.op ≠ .read ∧ 0x40 ≤ acc.offset.toNat ∧ acc.offset.toNat ≤ 0x5C) ∨ (acc.op ≠ .read ∧ acc.offset.toNat = 0x60)

theorem isBusError_of_unmapped {acc : Access} (h : registerAt acc.offset = none) : IsBusError acc := by
  obtain ⟨-, halign | hrange⟩ | ⟨i, hr, -⟩ | ⟨j, hr, -⟩ | ⟨hr, -⟩ | ⟨hr, -⟩ | ⟨hr, -⟩ := registerAt_cases acc.offset
  · exact .inr (.inl halign)
  · exact .inr (.inr (.inl hrange))
  all_goals exact absurd (hr.symm.trans h) (by simp)

/-- At a mapped offset only the width, or a write to a read-only register, makes a bus error. -/
theorem isBusError_iff_of_mapped {acc : Access} {r : WindowReg} (h : registerAt acc.offset = some r) :
    IsBusError acc ↔ acc.width ≠ .bytes 4 ∨ (acc.op ≠ .read ∧ r.readOnly = true) := by
  unfold IsBusError
  obtain ⟨hr, -⟩ | ⟨i, hr, ho⟩ | ⟨j, hr, ho⟩ | ⟨hr, ho⟩ | ⟨hr, ho⟩ | ⟨hr, ho⟩ := registerAt_cases acc.offset
  · exact absurd (hr.symm.trans h) (by simp)
  all_goals obtain rfl := Option.some.inj (hr.symm.trans h)
  · have halign : acc.offset.toNat % 4 = 0 := by omega
    have hbelow : acc.offset.toNat < 0x40 := by omega
    grind [WindowReg.readOnly]
  · have halign : acc.offset.toNat % 4 = 0 := by omega
    have hrange : 0x40 ≤ acc.offset.toNat ∧ acc.offset.toNat ≤ 0x5C := by omega
    grind [WindowReg.readOnly]
  all_goals simp [ho, WindowReg.readOnly]

/-- Every access is a bus error under the conditions of R55, or completes and meets none of them. -/
theorem performAccess_total (acc : Access) (s : State) :
    (IsBusError acc ∧ performAccess acc s = .fault .busError) ∨
    (¬ IsBusError acc ∧ ∃ t, performAccess acc s = .next t) := by
  by_cases hwidth : acc.width = .bytes 4
  case neg => exact .inl ⟨.inl hwidth, performAccess_of_width hwidth s⟩
  cases hr : registerAt acc.offset with
  | none => exact .inl ⟨isBusError_of_unmapped hr, performAccess_of_unmapped hr s⟩
  | some r =>
    rw [isBusError_iff_of_mapped hr]
    cases hop : acc.op with
    | read => exact .inr ⟨by simp [hwidth], _, performAccess_of_read hwidth hr hop s⟩
    | write v =>
      rw [performAccess_of_write hwidth hr hop]
      cases hro : r.readOnly
      case true => exact .inl ⟨by simp, by rw [windowWrite_of_readOnly hro]; rfl⟩
      case false =>
        obtain ⟨t, ht⟩ := windowWrite_of_writable hro v s
        exact .inr ⟨by simp [hwidth], _, by rw [ht]; rfl⟩

theorem performAccess_fault_iff (acc : Access) (s : State) :
    performAccess acc s = .fault .busError ↔ IsBusError acc := by
  obtain ⟨hbus, hfault⟩ | ⟨hbus, t, hnext⟩ := performAccess_total acc s
  · exact iff_of_true hfault hbus
  · exact iff_of_false (by simp [hnext]) hbus

/-! ## Steps, an event at a time -/

/-- With nothing at the port a step waits (70_reset_and_hazards.md R231). -/
theorem step_of_idle {s : State} (hp : s.pending = []) : step s = .next s := by
  simp only [step, portStep, hp]

theorem step_of_access {s : State} {acc : Access} {rest : List PortEvent} (hp : atPort s acc rest) :
    step s = performAccess acc (setPending rest s) := by
  simp only [step, portStep, hp]

theorem answerBusError_of_access {s : State} {acc : Access} {rest : List PortEvent} (hp : atPort s acc rest) :
    answerBusError s = respond (.busError acc.host) (setPending rest s) := by
  simp only [answerBusError, hp]

/-- Settles O48: each register's rule for a read and for a write, against the conditions of R55. -/
theorem busErrorConditions : Obligations.BusErrorConditions := by
  intro s acc rest hp
  refine ⟨?_, answerBusError_of_access hp⟩
  rw [step_of_access hp]
  exact performAccess_fault_iff acc _

/-- Every step goes on, or is a bus error on the access that waits first. -/
theorem step_total (s : State) :
    (∃ t, step s = .next t) ∨ (step s = .fault .busError ∧ ∃ acc rest, atPort s acc rest) := by
  cases hp : s.pending with
  | nil => exact .inl ⟨s, step_of_idle hp⟩
  | cons e rest =>
    cases e with
    | reset => exact .inl ⟨_, step_of_reset hp⟩
    | access acc =>
      rw [step_of_access hp]
      obtain ⟨-, hfault⟩ | ⟨-, t, hnext⟩ := performAccess_total acc (setPending rest s)
      · exact .inr ⟨hfault, acc, rest, hp⟩
      · exact .inl ⟨t, hnext⟩

theorem serve_of_fault {s : State} {f : Fault} (h : step s = .fault f) : serve s = answerBusError s := by
  rw [step] at h
  simp only [serve, h]

/-- Settles O49: a step goes on or is a bus error, which is answered. -/
theorem onlyBusErrorsStop : Obligations.OnlyBusErrorsStop := by
  intro s
  obtain hnext | ⟨hfault, acc, rest, hp⟩ := step_total s
  · exact .inl hnext
  · exact .inr ⟨hfault, acc, rest, hp, serve_of_fault hfault⟩

/-! ## Runs, a step at a time -/

theorem run_succ_of_next {s t : State} (h : step s = .next t) (k : Nat) :
    Host.Core.run Sys2Proof.core (k + 1) s = Host.Core.run Sys2Proof.core k t := by
  have hcore : Host.Core.step Sys2Proof.core s = .next t := h
  simp only [Host.Core.run, hcore]

theorem run_succ_of_fault {s : State} {f : Fault} (h : step s = .fault f) (k : Nat) :
    Host.Core.run Sys2Proof.core (k + 1) s = .fault f := by
  have hcore : Host.Core.step Sys2Proof.core s = .fault f := h
  simp only [Host.Core.run, hcore]

theorem run_succ_next {k : Nat} {s t : State} (h : Host.Core.run Sys2Proof.core (k + 1) s = .next t) :
    ∃ u, step s = .next u ∧ Host.Core.run Sys2Proof.core k u = .next t := by
  obtain ⟨u, hstep⟩ | ⟨hstep, -⟩ := step_total s
  · exact ⟨u, hstep, (run_succ_of_next hstep k).symm.trans h⟩
  · exact absurd ((run_succ_of_fault hstep k).symm.trans h) (by simp)

theorem run_zero_next {s t : State} (h : Host.Core.run Sys2Proof.core 0 s = .next t) : s = t := by
  cases h
  rfl

/-- Settles O15: an idle step waits, so every run does. -/
theorem idleBlockWaits : Obligations.IdleBlockWaits := by
  intro s hp k
  induction k with
  | zero => rfl
  | succ k ih => rw [run_succ_of_next (step_of_idle hp), ih]

/-- Settles O6: the step of a CMD write of a legal word. -/
theorem stepRunsDecodedCommand : Obligations.StepRunsDecodedCommand :=
  fun _ _ _ _ _ hp hdecode => step_of_legalCmdWrite hp hdecode

/-- A set ERR stays, with its CAUSE, through a step that no event at the port clears it in. -/
theorem step_keeps_record {s t : State} (h : step s = .next t) (herr : s.err = true)
    (hclear : ∀ e ∈ s.pending, ¬ ClearsStatus e) : t.err = true ∧ t.cause = s.cause := by
  obtain ⟨hkept, hcause⟩ | ⟨hfalse, -⟩ | ⟨-, -, e, he, hclears⟩ := step_status h
  · exact ⟨hkept.trans herr, hcause⟩
  · exact absurd (herr.symm.trans hfalse) (by simp)
  · exact absurd hclears (hclear e he)

/-- Settles O9: by induction on the run, whose later events are events that waited at its start. -/
theorem errorRecordIsSticky : Obligations.ErrorRecordIsSticky := by
  intro k s t herr hevents hrun
  have hclear : ∀ e ∈ s.pending, ¬ ClearsStatus e := by
    intro e he hclears
    obtain ⟨hnoReset, hnoClear⟩ := hevents e he
    obtain hreset | ⟨acc, v, hacc, hoffset, hop, hodd⟩ := hclears
    · exact hnoReset hreset
    · have heven := hnoClear acc v hacc hoffset hop
      omega
  clear hevents
  induction k generalizing s with
  | zero =>
    obtain rfl := run_zero_next hrun
    exact ⟨herr, rfl⟩
  | succ k ih =>
    obtain ⟨u, hstep, hrun⟩ := run_succ_next hrun
    obtain ⟨hset, hcause⟩ := step_keeps_record hstep herr hclear
    obtain ⟨hpending, -⟩ := step_port hstep
    have htail : ∀ e ∈ u.pending, ¬ ClearsStatus e := fun e he => hclear e (List.mem_of_mem_tail (hpending ▸ he))
    obtain ⟨hlast, hlastCause⟩ := ih u hset hrun htail
    exact ⟨hlast, hlastCause.trans hcause⟩

/-! ## The order of events (20_memory.md R64) -/

theorem run_port {k : Nat} {s t : State} (h : Host.Core.run Sys2Proof.core k s = .next t) :
    t.pending = s.pending.drop k ∧ ∃ l, t.replies = l ++ s.replies ∧ l.length ≤ k := by
  induction k generalizing s with
  | zero =>
    obtain rfl := run_zero_next h
    exact ⟨rfl, [], rfl, le_rfl⟩
  | succ k ih =>
    obtain ⟨u, hstep, hrun⟩ := run_succ_next h
    obtain ⟨hpending, l, hreplies, hl⟩ := step_port hstep
    obtain ⟨hpending', l', hreplies', hl'⟩ := ih hrun
    refine ⟨by rw [hpending', hpending, List.drop_tail], l' ++ l, by rw [hreplies', hreplies, List.append_assoc], ?_⟩
    rw [List.length_append]
    omega

theorem accessesOf_append (h : Nat) (l l' : List PortEvent) :
    accessesOf h (l ++ l') = accessesOf h l ++ accessesOf h l' := by
  induction l with
  | nil => rfl
  | cons e l ih =>
    cases e with
    | reset => exact ih
    | access acc =>
      simp only [List.cons_append, accessesOf, ih]
      split <;> rfl

/-- Settles O50: a run takes its events from the front of the port's list, and what is taken and what is left are the
whole list. -/
theorem portKeepsOrder : Obligations.PortKeepsOrder := by
  intro k s t hrun
  obtain ⟨hpending, hreplies⟩ := run_port hrun
  refine ⟨hpending, hreplies, fun program hprogram h => ?_⟩
  rw [hpending, ← accessesOf_append, List.take_append_drop, hprogram h]

/-! ## Renaming hosts (20_memory.md R50, 60_exceptions.md R210) -/

/-- An outcome with the hosts renamed in its state, if it has one. -/
def renameOutcome (f : Nat → Nat) : Host.Outcome State Fault Refusal → Host.Outcome State Fault Refusal
  | .next s => .next (renameHosts f s)
  | .fault r => .fault r
  | .refused r => .refused r

theorem exec_renameHosts (f : Nat → Nat) (i : Instr) (s : State) :
    exec i (renameHosts f s) = renameOutcome f (exec i s) := by
  obtain ⟨g, hg, hexec⟩ := exec_actsOnUnits i
  obtain ⟨p, y, hgs⟩ := hg.frame s
  calc exec i (renameHosts f s)
      = .next (g (unitsOver (renameHosts f s) s)) := hexec _
    _ = .next (unitsOver (renameHosts f s) (g s)) := by rw [hg.blind]
    _ = .next (renameHosts f (g s)) := by rw [hgs]; rfl
    _ = renameOutcome f (exec i s) := by rw [hexec]; rfl

theorem runCommandWord_renameHosts (f : Nat → Nat) (w : Word) (s : State) :
    runCommandWord w (renameHosts f s) = renameOutcome f (runCommandWord w s) := by
  unfold runCommandWord
  cases decode w with
  | legal i => exact exec_renameHosts f i s
  | illegal c => rfl

theorem windowWrite_renameHosts (f : Nat → Nat) (r : WindowReg) (v : Word) (s : State) :
    windowWrite r v (renameHosts f s) = renameOutcome f (windowWrite r v s) := by
  cases r with
  | cmd => exact runCommandWord_renameHosts f v (setLastcmd v s)
  | a | y | prngState | status => rfl

theorem respondAfter_renameOutcome (f : Nat → Nat) (r : Reply) (o : Host.Outcome State Fault Refusal) :
    respondAfter (renameReply f r) (renameOutcome f o) = renameOutcome f (respondAfter r o) := by
  cases o <;> rfl

theorem performAccess_renameHosts (f : Nat → Nat) (acc : Access) (s : State) :
    performAccess (renameAccess f acc) (renameHosts f s) = renameOutcome f (performAccess acc s) := by
  by_cases hwidth : acc.width = .bytes 4
  case neg =>
    rw [performAccess_of_width hwidth, performAccess_of_width (acc := renameAccess f acc) hwidth]
    rfl
  cases hr : registerAt acc.offset with
  | none =>
    rw [performAccess_of_unmapped hr, performAccess_of_unmapped (acc := renameAccess f acc) hr]
    rfl
  | some r =>
    cases hop : acc.op with
    | read =>
      rw [performAccess_of_read hwidth hr hop, performAccess_of_read (acc := renameAccess f acc) hwidth hr hop]
      cases r <;> rfl
    | write v =>
      rw [performAccess_of_write hwidth hr hop, performAccess_of_write (acc := renameAccess f acc) hwidth hr hop,
        windowWrite_renameHosts]
      exact respondAfter_renameOutcome f (.writeDone acc.host) _

theorem step_renameHosts (f : Nat → Nat) (s : State) : step (renameHosts f s) = renameOutcome f (step s) := by
  have hp : (renameHosts f s).pending = s.pending.map (renameEvent f) := rfl
  cases hs : s.pending with
  | nil =>
    rw [hs] at hp
    rw [step_of_idle hs, step_of_idle hp]
    rfl
  | cons e rest =>
    rw [hs] at hp
    cases e with
    | reset =>
      rw [step_of_reset hs, step_of_reset hp]
      rfl
    | access acc =>
      rw [step_of_access hs, step_of_access hp]
      exact performAccess_renameHosts f acc (setPending rest s)

theorem run_renameHosts (f : Nat → Nat) (k : Nat) (s : State) :
    Host.Core.run Sys2Proof.core k (renameHosts f s) = renameOutcome f (Host.Core.run Sys2Proof.core k s) := by
  induction k generalizing s with
  | zero => rfl
  | succ k ih =>
    have hrename := step_renameHosts f s
    obtain ⟨t, hstep⟩ | ⟨hstep, -⟩ := step_total s <;> rw [hstep] at hrename
    · rw [run_succ_of_next hstep, run_succ_of_next hrename, ih]
    · rw [run_succ_of_fault hstep, run_succ_of_fault hrename]
      rfl

/-- Settles O51: every step, and so every run, commutes with renaming the hosts. -/
theorem hostsAreIndistinguishable : Obligations.HostsAreIndistinguishable := by
  intro f k s
  rw [run_renameHosts]
  exact ⟨fun t h => by rw [h]; rfl, fun h => by rw [h]; rfl⟩

/-! ## The window (20_memory.md R51) and bit reinterpretation (40_dispatch.md R95) -/

theorem toWindow_of_inside {q : BusRequest} {offset : BitVec 8} (h : q.address = Config.blockBase + offset.toNat) :
    q.toWindow = some { host := q.host, offset := offset, width := q.width, op := q.op } := by
  have hlt : offset.toNat < 0x100 := offset.isLt
  have hin : Config.blockBase ≤ q.address ∧ q.address < Config.blockBase + 0x100 := by omega
  have hoffset : BitVec.ofNat 8 (q.address - Config.blockBase) = offset := by
    rw [h, Nat.add_sub_cancel_left, BitVec.ofNat_toNat, BitVec.setWidth_eq]
  rw [BusRequest.toWindow, if_pos hin, hoffset]

theorem toWindow_of_outside {q : BusRequest} (h : q.address < Config.blockBase ∨ Config.blockBase + 0x100 ≤ q.address) :
    q.toWindow = none := by
  rw [BusRequest.toWindow, if_neg (by omega)]

theorem present_of_toWindow_some {q : BusRequest} {acc : Access} (h : q.toWindow = some acc) (s : State) :
    present q s = setPending (s.pending ++ [.access acc]) s := by
  delta present
  rw [h]

theorem present_of_toWindow_none {q : BusRequest} (h : q.toWindow = none) (s : State) : present q s = s := by
  delta present
  rw [h]

theorem blockBase_page_aligned : Config.blockBase % 0x100 = 0 := by
  unfold Config.blockBase
  omega

/-- Settles O52: the base is a page number times the page size, and the offset of an address in the window is its
distance from the base. -/
theorem windowSitsAtBlockBase : Obligations.WindowSitsAtBlockBase := by
  refine ⟨blockBase_page_aligned, fun q s => ⟨fun offset h => ?_, fun h => ?_⟩⟩
  · exact present_of_toWindow_some (toWindow_of_inside h) s
  · exact present_of_toWindow_none (toWindow_of_outside h) s

theorem offset_a_toNat (i : Fin 16) : (BitVec.ofNat 8 (4 * i.val)).toNat = 4 * i.val := by
  rw [BitVec.toNat_ofNat]
  omega

theorem step_of_wrA {s : State} {host : Nat} {i : Fin 16} {v : Word} {rest : List PortEvent}
    (hp : s.pending = wrA host i v :: rest) :
    step s = .next (respond (.writeDone host) (writeA i v (setPending rest s))) :=
  step_of_wordWrite hp (registerAt_a (offset_a_toNat i))

theorem step_of_rdA {s : State} {host : Nat} {i : Fin 16} {rest : List PortEvent}
    (hp : s.pending = rdA host i :: rest) :
    step s = .next (respond (.readData host (readA i s)) (setPending rest s)) :=
  step_of_wordRead hp (registerAt_a (offset_a_toNat i))

/-- Settles O53: the write sets the register to the word, and the read answers the register. -/
theorem reinterpretationIsIdentity : Obligations.ReinterpretationIsIdentity := by
  intro s h h' i v rest hp
  have hwrite := step_of_wrA hp
  have hread := step_of_rdA (s := respond (.writeDone h) (writeA i v (setPending (rdA h' i :: rest) s))) rfl
  have hword : readA i (respond (.writeDone h) (writeA i v (setPending (rdA h' i :: rest) s))) = v := by
    rw [readA_respond, readA_writeA, if_pos rfl]
  rw [hword] at hread
  refine ⟨_, (run_succ_of_next hwrite 1).trans (run_succ_of_next hread 0), rfl, fun j => ?_⟩
  simp [readA_writeA, eq_comm]

end Sys2Proof.Machine

/-! # The half codec in both underflow modes (41_half_codec.md R105, R107, R109, R113, R121, R123) -/

namespace Sys2Proof.Machine

/-! ## Packed halves -/

theorem sign16_halfOf (s : BitVec 1) {code : Nat} (hcode : code < 2 ^ 15) : sign16 (halfOf s code) = s := by
  apply BitVec.eq_of_toNat_eq
  rw [sign16_toNat, halfOf_toNat s hcode]
  omega

theorem exp16_halfOf (s : BitVec 1) {code : Nat} (hcode : code < 2 ^ 15) :
    (exp16 (halfOf s code)).toNat = code / 1024 := by
  rw [exp16_toNat, halfOf_toNat s hcode]
  omega

theorem frac16_halfOf (s : BitVec 1) {code : Nat} (hcode : code < 2 ^ 15) :
    (frac16 (halfOf s code)).toNat = code % 1024 := by
  rw [frac16_toNat, halfOf_toNat s hcode]
  omega

theorem isInf16_halfOf_iff (s : BitVec 1) {code : Nat} (hcode : code < 2 ^ 15) :
    isInf16 (halfOf s code) = true ↔ code = 0x7C00 := by
  rw [isInf16_iff, exp16_halfOf s hcode, frac16_halfOf s hcode]
  omega

theorem halfOf_inj {s : BitVec 1} {code code' : Nat} (hcode : code < 2 ^ 15) (hcode' : code' < 2 ^ 15) :
    halfOf s code = halfOf s code' ↔ code = code' := by
  rw [BitVec.toNat_eq, halfOf_toNat s hcode, halfOf_toNat s hcode']
  omega

/-- A half is its sign and its code. -/
theorem halfOf_sign16 (h : Half) : halfOf (sign16 h) (h.toNat % 2 ^ 15) = h := by
  apply BitVec.eq_of_toNat_eq
  rw [halfOf_toNat _ (by omega), sign16_toNat]
  omega

/-- The magnitude of a half is the grid point at its code; the grid's unit is 2^125 times smaller. -/
theorem mag16_mul (h : Half) : mag16 h * 2 ^ 125 = halfGrid (h.toNat % 2 ^ 15) := by
  have hexp : h.toNat % 2 ^ 15 / 1024 = (exp16 h).toNat := by rw [exp16_toNat]; omega
  have hfrac : h.toNat % 2 ^ 15 % 1024 = (frac16 h).toNat := by rw [frac16_toNat]; omega
  rw [halfGrid, hexp, hfrac]
  by_cases he : (exp16 h).toNat = 0
  · rw [mag16_of_exp_zero he, if_pos he]
  · rw [mag16_of_exp_ne_zero he, if_neg he]

/-! ## Classes -/

theorem isInf32_eq_false_of_isNaN32 {a : Word} (h : isNaN32 a = true) : isInf32 a = false := by
  rw [← Bool.not_eq_true, isInf32_iff]
  rw [isNaN32_iff] at h
  omega

theorem isInf32_eq_false_of_isFinite32 {a : Word} (h : isFinite32 a = true) : isInf32 a = false := by
  rw [← Bool.not_eq_true, isInf32_iff]
  rw [isFinite32_iff] at h
  omega

/-! ## Magnitudes by exponent -/

/-- A word has a magnitude of at least 2^(22+k), in units of 2^-149, when its exponent field is at least `k`. -/
theorem two_pow_le_mag32_iff (a : Word) {k : Nat} (hk : 1 ≤ k) : 2 ^ (22 + k) ≤ mag32 a ↔ k ≤ (exp32 a).toNat := by
  have hfrac : (frac32 a).toNat < 2 ^ 23 := (frac32 a).isLt
  by_cases hzero : (exp32 a).toNat = 0
  · have hpow : 2 ^ 23 ≤ 2 ^ (22 + k) := Nat.pow_le_pow_right (by norm_num) (by omega)
    rw [mag32_of_exp_zero hzero]
    omega
  rw [mag32_of_exp_ne_zero hzero]
  generalize (exp32 a).toNat = e at hzero ⊢
  constructor
  · intro hmag
    by_contra hexp
    have hlt : (2 ^ 23 + (frac32 a).toNat) * 2 ^ (e - 1) < 2 ^ 24 * 2 ^ (e - 1) :=
      Nat.mul_lt_mul_of_pos_right (by omega) (by positivity)
    have hle : 2 ^ 24 * 2 ^ (e - 1) ≤ 2 ^ (22 + k) := by
      rw [← pow_add]
      exact Nat.pow_le_pow_right (by norm_num) (by omega)
    omega
  · intro hexp
    calc 2 ^ (22 + k) = 2 ^ 23 * 2 ^ (k - 1) := by rw [← pow_add]; congr 1; omega
      _ ≤ _ := Nat.mul_le_mul (by omega) (Nat.pow_le_pow_right (by norm_num) (by omega))

theorem halfGrid_largest_finite : halfGrid 0x7BFF = 65504 * 2 ^ 149 := by norm_num [halfGrid]

theorem halfGrid_overflow : halfGrid 0x7C00 = 65536 * 2 ^ 149 := by norm_num [halfGrid]

theorem halfGrid_overflow_le_of_large {a : Word} (hlarge : 143 ≤ (exp32 a).toNat) : halfGrid 0x7C00 ≤ mag32 a := by
  rw [halfGrid_overflow]
  exact (by norm_num : 65536 * 2 ^ 149 = 2 ^ (22 + 143)).trans_le ((two_pow_le_mag32_iff a (by norm_num)).2 hlarge)

/-! ## Below 2^-24 (41_half_codec.md R105) -/

theorem f2h_gradual_of_tiny {a : Word} (htiny : (exp32 a).toNat < 102) : f2h .gradualRne a = halfOf (sign32 a) 0 := by
  have hexp : (exp32 a).toNat ≠ 0xFF := by omega
  have hE : ¬ ((exp32 a).toNat : Int) - 127 ≥ 16 := by omega
  have hbelow : ((exp32 a).toNat : Int) - 127 < -25 := by omega
  simp only [f2h, hexp, hE, hbelow, false_and, reduceCtorEq, and_self, if_true, if_false, ite_self]

/-- From 2^-25 to 2^-24 the nearest grid points are 0 and 2^-24: only the midpoint 2^-25 is a tie, which goes to the
even code 0. -/
theorem f2h_gradual_of_band {a : Word} (hband : (exp32 a).toNat = 102) :
    f2h .gradualRne a = halfOf (sign32 a) (if 0 < (frac32 a).toNat then 1 else 0) := by
  have hfrac : (frac32 a).toNat < 2 ^ 23 := (frac32 a).isLt
  have hround : roundShiftEven (2 ^ 23 + (frac32 a).toNat) 24 = if 0 < (frac32 a).toNat then 1 else 0 := by
    have hcases := roundShiftEven_cases (2 ^ 23 + (frac32 a).toNat) (sh := 24) (by norm_num)
    split <;> omega
  have hexp : (exp32 a).toNat ≠ 0xFF ∧ (exp32 a).toNat ≠ 0 := by omega
  have hE : ¬ ((exp32 a).toNat : Int) - 127 ≥ 16 ∧ ¬ ((exp32 a).toNat : Int) - 127 < -25 := by omega
  have hcode : roundedHalfCode ((exp32 a).toNat - 127) (2 ^ 23 + (frac32 a).toNat) =
      roundShiftEven (2 ^ 23 + (frac32 a).toNat) 24 := by
    rw [roundedHalfCode_eq, hband]
    exact Nat.zero_add _
  rw [← hround, ← hcode]
  simp only [f2h, hexp, hE, false_and, and_false, reduceCtorEq, if_false, Nat.reducePow]

/-- Everything `f2h` does below 2^-24. -/
theorem f2h_of_small (mode : HalfUnderflow) {a : Word} (hsmall : (exp32 a).toNat < 103) :
    f2h mode a = halfOf (sign32 a) (if mode = .gradualRne ∧ 2 ^ 124 < mag32 a then 1 else 0) := by
  cases mode with
  | flushBelowMinSubnormal => rw [f2h_flush_of_small hsmall, if_neg (by simp)]
  | gradualRne =>
    obtain htiny | hband : (exp32 a).toNat < 102 ∨ (exp32 a).toNat = 102 := by omega
    · have hmag := not_le.1 (mt (two_pow_le_mag32_iff a (k := 102) (by norm_num)).1 (by omega))
      rw [f2h_gradual_of_tiny htiny, if_neg fun h => absurd h.2 hmag.le.not_gt]
    · have hmag : 2 ^ 124 < mag32 a ↔ 0 < (frac32 a).toNat := by
        rw [mag32_of_exp_ne_zero (by omega), hband]
        omega
      rw [f2h_gradual_of_band hband]
      simp only [true_and, hmag]

/-! ## Everything `f2h` does -/

theorem f2h_cases (mode : HalfUnderflow) (a : Word) :
    (isNaN32 a = true ∧ f2h mode a = halfOf (sign32 a) 0x7E00) ∨
    (isInf32 a = true ∧ f2h mode a = halfOf (sign32 a) 0x7C00) ∨
    (isFinite32 a = true ∧ halfGrid 0x7C00 ≤ mag32 a ∧ f2h mode a = halfOf (sign32 a) 0x7C00) ∨
    (isFinite32 a = true ∧ ∃ lo code, lo < 0x7C00 ∧ halfGrid lo ≤ mag32 a ∧ mag32 a ≤ halfGrid (lo + 1) ∧
      RoundsEven halfGrid (mag32 a) lo code ∧ f2h mode a = halfOf (sign32 a) code) ∨
    (isFinite32 a = true ∧ mag32 a < 2 ^ 125 ∧
      f2h mode a = halfOf (sign32 a) (if mode = .gradualRne ∧ 2 ^ 124 < mag32 a then 1 else 0)) := by
  cases hfin : isFinite32 a
  case false =>
    obtain hnan | hinf := (isFinite32_eq_false_iff a).1 hfin
    · exact .inl ⟨hnan, f2h_of_isNaN32 mode hnan⟩
    · exact .inr (.inl ⟨hinf, f2h_of_isInf32 mode hinf⟩)
  case true =>
    obtain hlarge | ⟨hlow, hhigh⟩ | hsmall :
        143 ≤ (exp32 a).toNat ∨ (103 ≤ (exp32 a).toNat ∧ (exp32 a).toNat < 143) ∨ (exp32 a).toNat < 103 := by omega
    · exact .inr (.inr (.inl ⟨rfl, halfGrid_overflow_le_of_large hlarge, f2h_of_large mode hfin hlarge⟩))
    · have hfrac : (frac32 a).toNat < 2 ^ 23 := (frac32 a).isLt
      obtain ⟨lo, hlo, hbelow, habove, hround⟩ :=
        roundedHalfCode_roundsEven hlow hhigh (Nat.le_add_right _ (frac32 a).toNat) (by omega)
      rw [← mag32_of_exp_ne_zero (by omega)] at hbelow habove hround
      exact .inr (.inr (.inr (.inl ⟨rfl, lo, _, hlo, hbelow, habove, hround, f2h_of_mid mode hlow hhigh⟩)))
    · have hmag := not_le.1 (mt (two_pow_125_le_mag32_iff a).1 hsmall.not_ge)
      exact .inr (.inr (.inr (.inr ⟨rfl, hmag, f2h_of_small mode hsmall⟩)))

theorem RoundsEven.code_le {g : Nat → Nat} {v lo code : Nat} (h : RoundsEven g v lo code) : code ≤ lo + 1 := by
  obtain ⟨rfl, -⟩ | ⟨rfl, -⟩ := h <;> omega

/-- Every word narrows to a packed half of its sign. -/
theorem f2h_eq_halfOf (mode : HalfUnderflow) (a : Word) : ∃ code < 2 ^ 15, f2h mode a = halfOf (sign32 a) code := by
  obtain ⟨-, h⟩ | ⟨-, h⟩ | ⟨-, -, h⟩ | ⟨-, lo, code, hlo, -, -, hround, h⟩ | ⟨-, -, h⟩ := f2h_cases mode a
  · exact ⟨_, by norm_num, h⟩
  · exact ⟨_, by norm_num, h⟩
  · exact ⟨_, by norm_num, h⟩
  · exact ⟨code, hround.code_le.trans_lt (by omega), h⟩
  · exact ⟨_, by split <;> norm_num, h⟩

/-- Settles O19: the sign of a packed half is the sign it was packed with. -/
theorem narrowKeepsSign : Obligations.NarrowKeepsSign := by
  intro mode a
  obtain ⟨code, hcode, h⟩ := f2h_eq_halfOf mode a
  have hsign : sign16 (f2h mode a) = sign32 a := by rw [h, sign16_halfOf _ hcode]
  exact ⟨hsign, by rw [← sign16_toNat, hsign, sign32_toNat]⟩

/-! ## Overflow (41_half_codec.md R107) -/

/-- Rounding reaches infinity from the last binade's upper midpoint 65520 on, a tie that goes up to the even code. -/
theorem RoundsEven.overflow_iff {v lo code : Nat} (h : RoundsEven halfGrid v lo code) (hlo : lo < 0x7C00)
    (habove : v ≤ halfGrid (lo + 1)) : code = 0x7C00 ↔ 65520 * 2 ^ 149 ≤ v := by
  obtain hlast | hlt : lo = 0x7BFF ∨ lo + 1 ≤ 0x7BFF := by omega
  · subst hlast
    rw [RoundsEven, halfGrid_largest_finite, halfGrid_overflow] at h
    omega
  · have hcode := h.code_le
    have hgrid := halfGrid_strictMono.monotone hlt
    rw [halfGrid_largest_finite] at hgrid
    omega

theorem RoundsEven.largest_finite {v lo code : Nat} (h : RoundsEven halfGrid v lo code) (hlo : lo < 0x7C00)
    (habove : v ≤ halfGrid (lo + 1)) (hlow : 65504 * 2 ^ 149 < v) (hhigh : v < 65520 * 2 ^ 149) : code = 0x7BFF := by
  have hgrid : 0x7BFF < lo + 1 := by
    rw [← halfGrid_strictMono.lt_iff_lt, halfGrid_largest_finite]
    omega
  obtain rfl : lo = 0x7BFF := by omega
  rw [RoundsEven, halfGrid_largest_finite, halfGrid_overflow] at h
  omega

/-- Settles O20: a case of `f2h` at a time, the rounded magnitudes by the last two points of the grid. -/
theorem narrowOverflowThreshold : Obligations.NarrowOverflowThreshold := by
  intro mode a
  obtain ⟨hnan, h⟩ | ⟨hinf, h⟩ | ⟨hfin, hmag, h⟩ | ⟨hfin, lo, code, hlo, -, habove, hround, h⟩ | ⟨hfin, hmag, h⟩ :=
    f2h_cases mode a
  · have hfin : isFinite32 a = false := (isFinite32_eq_false_iff a).2 (.inl hnan)
    have hinf : isInf32 a = false := isInf32_eq_false_of_isNaN32 hnan
    rw [h, isInf16_halfOf_iff _ (by norm_num), hfin, hinf]
    simp
  · have hfin : isFinite32 a = false := (isFinite32_eq_false_iff a).2 (.inr hinf)
    rw [h, isInf16_halfOf_iff _ (by norm_num), hfin]
    simp [hinf]
  all_goals rw [show isInf32 a = false from isInf32_eq_false_of_isFinite32 hfin, hfin]
  all_goals simp only [Bool.false_eq_true, false_or, true_and, true_imp_iff]
  · rw [halfGrid_overflow] at hmag
    rw [h, isInf16_halfOf_iff _ (by norm_num)]
    omega
  · have hcode : code < 2 ^ 15 := hround.code_le.trans_lt (by omega)
    rw [h, isInf16_halfOf_iff _ hcode, hround.overflow_iff hlo habove, halfOf_toNat _ hcode]
    refine ⟨Iff.rfl, fun hlow hhigh => ?_⟩
    rw [hround.largest_finite hlo habove hlow hhigh]
    omega
  · rw [h, isInf16_halfOf_iff _ (by split <;> norm_num)]
    split <;> omega

/-! ## The two underflow modes (41_half_codec.md R105, 90_conflicts.md C4) -/

/-- From 2^-24 on, and for NaNs and infinities, the mode does not matter. -/
theorem f2h_mode_eq {a : Word} (h : 103 ≤ (exp32 a).toNat) (mode mode' : HalfUnderflow) : f2h mode a = f2h mode' a := by
  cases hfin : isFinite32 a
  case false =>
    obtain hnan | hinf := (isFinite32_eq_false_iff a).1 hfin
    · rw [f2h_of_isNaN32 mode hnan, f2h_of_isNaN32 mode' hnan]
    · rw [f2h_of_isInf32 mode hinf, f2h_of_isInf32 mode' hinf]
  case true =>
    obtain hhigh | hlarge := lt_or_ge (exp32 a).toNat 143
    · rw [f2h_of_mid mode h hhigh, f2h_of_mid mode' h hhigh]
    · rw [f2h_of_large mode hfin hlarge, f2h_of_large mode' hfin hlarge]

/-- Settles O21: below 2^-24 only the gradual mode has a code other than 0, above 2^-25. -/
theorem underflowModesDifferOnBand : Obligations.UnderflowModesDifferOnBand := by
  intro a
  obtain hsmall | hlow := lt_or_ge (exp32 a).toNat 103
  · have hmag := not_le.1 (mt (two_pow_125_le_mag32_iff a).1 hsmall.not_ge)
    have hfin : isFinite32 a = true := (isFinite32_iff a).2 (by omega)
    have hband : 2 ^ 124 < mag32 a ∧ mag32 a < 2 ^ 125 ↔ 2 ^ 124 < mag32 a := and_iff_left hmag
    rw [hband, f2h_of_small _ hsmall, f2h_of_small _ hsmall, ne_eq,
      halfOf_inj (by split <;> norm_num) (by split <;> norm_num)]
    simp [hfin]
  · have hmag := (two_pow_125_le_mag32_iff a).2 hlow
    exact iff_of_false (not_not.2 (f2h_mode_eq hlow _ _)) fun h => absurd h.2.2 hmag.not_gt

/-! ## NaN widening (41_half_codec.md R113) -/

theorem isNaN16_iff (h : Half) : isNaN16 h = true ↔ (exp16 h).toNat = 0x1F ∧ (frac16 h).toNat ≠ 0 := by
  simp [isNaN16, BitVec.toNat_eq]

theorem isNaN32_h2f {h : Half} (hnan : isNaN16 h = true) : isNaN32 (h2f h) = true := by
  obtain ⟨hexp, hfrac⟩ := (isNaN16_iff h).1 hnan
  have hlt : (frac16 h).toNat < 1024 := (frac16 h).isLt
  rw [h2f_of_exp_all_ones hexp, isNaN32_iff, exp32_widenedWord _ (by norm_num) hlt,
    frac32_widenedWord _ (by norm_num) hlt]
  omega

/-- Settles O24: the payload moves up by 13 bits, and with it the quiet bit from bit 9 to bit 22. -/
theorem widenKeepsNaNPayload : Obligations.WidenKeepsNaNPayload := by
  intro h hnan
  obtain ⟨hexp, -⟩ := (isNaN16_iff h).1 hnan
  have hword : (h2f h).toNat = h.toNat / 2 ^ 15 * 2 ^ 31 + 0x7F800000 + h.toNat % 1024 * 2 ^ 13 := by
    rw [h2f_of_exp_all_ones hexp, widenedWord_toNat _ (by norm_num) (frac16 h).isLt, sign16_toNat, frac16_toNat]
    norm_num
  have hquiet : (h2f h).getLsbD 22 = h.getLsbD 9 := by
    rw [BitVec.getLsbD, BitVec.getLsbD, Nat.testBit_eq_decide_div_mod_eq, Nat.testBit_eq_decide_div_mod_eq, hword]
    congr 1
    apply propext
    omega
  exact ⟨hword, isNaN32_h2f hnan, by rw [isQuiet32, isQuiet16, isNaN32_h2f hnan, hnan, hquiet]⟩

/-! ## Half to binary32 and back (41_half_codec.md R121) -/

/-- A magnitude on the grid is kept, in both modes. -/
theorem f2h_of_grid (mode : HalfUnderflow) {a : Word} (hfin : isFinite32 a = true) {c : Nat} (hc : c < 0x7C00)
    (hmag : mag32 a = halfGrid c) : f2h mode a = halfOf (sign32 a) c := by
  have hmono := halfGrid_strictMono
  obtain ⟨hnan, -⟩ | ⟨hinf, -⟩ | ⟨-, hlarge, -⟩ | ⟨-, lo, code, hlo, hbelow, habove, hround, h⟩ | ⟨-, hsmall, h⟩ :=
    f2h_cases mode a
  · exact absurd hfin (by simp [(isFinite32_eq_false_iff a).2 (.inl hnan)])
  · exact absurd hfin (by simp [(isFinite32_eq_false_iff a).2 (.inr hinf)])
  · rw [hmag, hmono.le_iff_le] at hlarge
    omega
  · rw [hmag, hmono.le_iff_le] at hbelow habove
    have hstep : halfGrid lo < halfGrid (lo + 1) := hmono (Nat.lt_succ_self lo)
    have hcode : code = c := by
      rw [hmag] at hround
      obtain rfl | rfl : c = lo ∨ c = lo + 1 := by omega
      · obtain ⟨heq, -⟩ | ⟨-, hup⟩ := hround <;> omega
      · obtain ⟨-, hdown⟩ | ⟨heq, -⟩ := hround <;> omega
    rw [h, hcode]
  · obtain rfl : c = 0 := by
      have hone : halfGrid 1 = 2 ^ 125 := by norm_num [halfGrid]
      rw [hmag, ← hone, hmono.lt_iff_lt] at hsmall
      omega
    have hzero : mag32 a = 0 := hmag.trans (by norm_num [halfGrid])
    rw [h, if_neg (by simp [hzero])]

theorem code_lt_of_isFinite16 {h : Half} (hfin : isFinite16 h = true) : h.toNat % 2 ^ 15 < 0x7C00 := by
  have hexp := (isFinite16_iff h).1 hfin
  rw [exp16_toNat] at hexp
  omega

theorem isInf16_of_not_finite {h : Half} (hfin : isFinite16 h = false) (hnan : isNaN16 h = false) :
    isInf16 h = true := by
  rw [← Bool.not_eq_true, isFinite16_iff] at hfin
  rw [← Bool.not_eq_true, isNaN16_iff] at hnan
  rw [isInf16_iff]
  omega

/-- Settles O25: NaNs and infinities by class, and a finite half is on the grid. -/
theorem halfRoundTrip : Obligations.HalfRoundTrip := by
  refine fun mode h => ⟨fun hnan => ?_, fun hnan => ?_⟩
  · cases hfin : isFinite16 h
    case true =>
      rw [f2h_of_grid mode (isFinite32_h2f hfin) (code_lt_of_isFinite16 hfin) ((mag32_h2f hfin).trans (mag16_mul h)),
        sign32_h2f, halfOf_sign16]
    case false =>
      have hinf := isInf16_of_not_finite hfin hnan
      have hcode : h.toNat % 2 ^ 15 = 0x7C00 := by
        rw [isInf16_iff, exp16_toNat, frac16_toNat] at hinf
        omega
      rw [f2h_of_isInf32 mode (isInf32_h2f hinf), sign32_h2f, ← hcode, halfOf_sign16]
  · rw [f2h_of_isNaN32 mode (isNaN32_h2f hnan), sign32_h2f, halfOf_toNat _ (by norm_num), sign16_toNat]

/-! ## Binary32 to half and back (41_half_codec.md R123) -/

theorem h2f_quietNaN (s : BitVec 1) : (h2f (halfOf s 0x7E00)).toNat = s.toNat * 2 ^ 31 + 0x7FC00000 := by
  have hcode : 0x7E00 < 2 ^ 15 := by norm_num
  have hexp : (exp16 (halfOf s 0x7E00)).toNat = 0x1F := exp16_halfOf s hcode
  rw [h2f_of_exp_all_ones hexp, sign16_halfOf s hcode, frac16_halfOf s hcode,
    widenedWord_toNat s (by norm_num) (by norm_num)]
  omega

theorem isFinite16_halfOf (s : BitVec 1) {code : Nat} (hcode : code < 0x7C00) : isFinite16 (halfOf s code) = true := by
  rw [isFinite16_iff, exp16_halfOf s (by omega)]
  omega

/-- A packed finite half widens to the grid point at its code. -/
theorem mag32_h2f_halfOf (s : BitVec 1) {code : Nat} (hcode : code < 0x7C00) :
    mag32 (h2f (halfOf s code)) = halfGrid code := by
  have hlow : (halfOf s code).toNat % 2 ^ 15 = code := by
    rw [halfOf_toNat s (by omega)]
    omega
  rw [mag32_h2f (isFinite16_halfOf s hcode), mag16_mul, hlow]

/-- Settles O26: the narrowed half is finite below the threshold, its code is 0 or nearest by O18, and widening is
exact. -/
theorem floatRoundTrip : Obligations.FloatRoundTrip := by
  refine fun a => ⟨fun hnan mode => ?nan, fun hfin hmag => ?finite⟩
  case nan => rw [f2h_of_isNaN32 mode hnan, h2f_quietNaN, sign32_toNat]
  case finite =>
    obtain ⟨code, hcode, h⟩ := f2h_eq_halfOf .flushBelowMinSubnormal a
    have hpacked : (f2h .flushBelowMinSubnormal a).toNat = a.toNat / 2 ^ 31 * 2 ^ 15 + code := by
      rw [h, halfOf_toNat _ hcode, sign32_toNat]
    obtain ⟨-, -, hflush, hnearest⟩ := narrowRoundsToNearestEven a _ code rfl hpacked hcode
    have hle : code ≤ 0x7C00 := by
      obtain hsmall | hlow := lt_or_ge (mag32 a) (2 ^ 125)
      · rw [hflush hfin hsmall]
        norm_num
      · exact (hnearest hfin hlow).1
    have hne : code ≠ 0x7C00 := by
      rw [ne_eq, ← isInf16_halfOf_iff (sign32 a) hcode, ← h]
      obtain ⟨hoverflow, -⟩ := narrowOverflowThreshold .flushBelowMinSubnormal a
      rw [hoverflow, isInf32_eq_false_of_isFinite32 hfin]
      exact fun h => h.elim Bool.false_ne_true fun h => hmag.not_ge h.2
    have hfinite : code < 0x7C00 := lt_of_le_of_ne hle hne
    refine ⟨_, rfl, ?_⟩
    rw [h]
    refine ⟨isFinite32_h2f (isFinite16_halfOf _ hfinite), by rw [sign32_h2f, sign16_halfOf _ hcode], fun hsmall => ?_,
      fun hlow => ⟨code, hfinite, mag32_h2f_halfOf _ hfinite, fun c hc => ?_⟩⟩
    · rw [mag32_h2f_halfOf _ hfinite, hflush hfin hsmall]
      norm_num [halfGrid]
    · obtain ⟨-, hbest⟩ := hnearest hfin hlow
      exact (hbest c hc).1

end Sys2Proof.Machine

/-! # SinCos results are bounded (42_sincos.md R134) -/

namespace Sys2Proof.Machine

/-- A square at most a millionth above 1 is that of a value at most half a millionth above 1. -/
theorem abs_le_of_sq_add_sq {x y : Rat} (h : |x ^ 2 + y ^ 2 - 1| ≤ 1 / 10 ^ 6) : |x| ≤ 10000005 / 10 ^ 7 := by
  have hsum := (abs_le.1 h).2
  refine abs_le_of_sq_le_sq ?_ (by norm_num)
  have hy := sq_nonneg y
  norm_num at hsum ⊢
  linarith

/-- Settles O30: the check that the pair meets has both results finite, and bounds the sum of their squares. -/
theorem sincosIsBounded : Obligations.SincosIsBounded := by
  intro x hfin
  obtain ⟨hsin, hcos, -⟩ := (sincosPairOk_iff _).1 (sincosFn_pairOk hfin)
  have hbound := identityBound_of_sincosPairOk (sincosFn_pairOk hfin)
  exact ⟨hsin, hcos, abs_le_of_sq_add_sq hbound, abs_le_of_sq_add_sq (by rwa [add_comm] at hbound)⟩

end Sys2Proof.Machine

/-! # Lanes are independent (40_dispatch.md R93) -/

namespace Sys2Proof.Machine

/-- The command of a lane count fills each lane's low register with `f` of the lane's operand. -/
def LowLanesAre (forms : List (Instr × Nat)) (f : Word → Word) : Prop :=
  ∀ {i : Instr} {n : Nat}, (i, n) ∈ forms → ∀ {s t : State}, exec i s = .next t →
    ∀ {j : Fin 4}, j.val < n → readY (lowY j) t = f (readA (laneA j) s)

theorem lowLanesAre_f32tof16 : LowLanesAre f32tof16Forms fun v => halfResult (f2h Config.halfUnderflow v) := by
  intro i n h s t hexec j hj
  obtain ⟨-, hmeaning⟩ := f32tof16Forms_eq h
  obtain rfl : narrowLanes n s = t := by simpa [hmeaning] using hexec
  rw [narrowLanes, readY_lowY_writeLanes, if_pos hj]

theorem lowLanesAre_f16tof32 : LowLanesAre f16tof32Forms fun v => h2f (halfOperand v) := by
  intro i n h s t hexec j hj
  obtain ⟨-, hmeaning⟩ := f16tof32Forms_eq h
  obtain rfl : widenLanes n s = t := by simpa [hmeaning] using hexec
  rw [widenLanes, readY_lowY_writeLanes, if_pos hj]

theorem readY_of_sincos {i : Instr} {n : Nat} (h : (i, n) ∈ sincosForms) {s t : State} (hexec : exec i s = .next t)
    {j : Fin 4} (hj : j.val < n) : readY (lowY j) t = (sincosFn (readA (laneA j) s)).1 ∧
      readY (highY j) t = (sincosFn (readA (laneA j) s)).2 := by
  obtain ⟨-, hmeaning⟩ := sincosForms_eq h
  obtain rfl : sincosLanes n s = t := by simpa [hmeaning] using hexec
  obtain ⟨hlow, hhigh⟩ := readY_sincosLanes n s j
  exact ⟨by rw [hlow, if_pos hj], by rw [hhigh, if_pos hj]⟩

theorem lowLanesAre_sincos : LowLanesAre sincosForms fun v => (sincosFn v).1 :=
  fun h _ _ hexec _ hj => (readY_of_sincos h hexec hj).1

/-- Settles O31: in each family a lane's results are one function of the lane's operand. -/
theorem lanesAreIndependent : Obligations.LanesAreIndependent := by
  intro forms hforms i i' n n' h h' s s' t t' j j' hj hj' hA hexec hexec'
  have hlow : ∃ f, LowLanesAre forms f := by
    simp only [List.mem_cons, List.not_mem_nil, or_false] at hforms
    obtain rfl | rfl | rfl := hforms
    exacts [⟨_, @lowLanesAre_f32tof16⟩, ⟨_, @lowLanesAre_f16tof32⟩, ⟨_, @lowLanesAre_sincos⟩]
  obtain ⟨f, hf⟩ := hlow
  refine ⟨by rw [hf h hexec hj, hf h' hexec' hj', hA], ?_⟩
  rintro rfl
  rw [(readY_of_sincos h hexec hj).2, (readY_of_sincos h' hexec' hj').2, hA]

end Sys2Proof.Machine

/-! # What a hash sees of its operands (43_hash.md R161, R162) -/

namespace Sys2Proof.Machine

/-! ## The results of the hash commands -/

theorem readY_of_hash {i : Instr} {rows cols : Nat} (h : (i, rows, cols) ∈ hashForms) {s t : State}
    (hexec : exec i s = .next t) : readY 0 t = hashNarrow rows cols (hashK rows cols) (hashC rows cols) s := by
  obtain ⟨-, hmeaning⟩ := hashForms_eq h
  obtain rfl : hashShape rows cols s = t := by simpa [hmeaning] using hexec
  rw [readY_hashShape, if_pos rfl]

theorem readY_of_hashwide {i : Instr} {rows cols : Nat} (h : (i, rows, cols) ∈ hashwideForms) {s t : State}
    (hexec : exec i s = .next t) {r : Fin 4} (hr : r.val < rows) :
    readY (lowY r) t = hashWideLane cols (wideK rows cols) (Config.wideC rows cols) s r := by
  obtain ⟨-, hmeaning⟩ := hashwideForms_eq h
  obtain rfl : hashwideShape rows cols s = t := by simpa [hmeaning] using hexec
  rw [hashwideShape, readY_lowY_writeLanes, if_pos hr]

theorem namedResults_hash {i : Instr} {rows cols : Nat} (h : (i, rows, cols) ∈ hashForms) : namedResults i = [0] := by
  generalize hf : (i, rows, cols) = f at h
  fin_cases h <;> cases hf <;> rfl

theorem namedResults_hashwide {i : Instr} {rows cols : Nat} (h : (i, rows, cols) ∈ hashwideForms) :
    namedResults i = (lanes rows).map lowY := by
  generalize hf : (i, rows, cols) = f at h
  fin_cases h <;> cases hf <;> rfl

/-- The shapes of both hashes: 2 to 4 rows by 1 to 4 columns (43_hash.md R150). -/
theorem shape_bounds {i : Instr} {rows cols : Nat} (h : (i, rows, cols) ∈ hashForms ∨ (i, rows, cols) ∈ hashwideForms) :
    2 ≤ rows ∧ rows ≤ 4 ∧ 1 ≤ cols ∧ cols ≤ 4 := by
  generalize hf : (i, rows, cols) = f at h
  obtain h | h := h <;> fin_cases h <;> cases hf <;> decide

/-! ## Low bits -/

/-- The elements of the shape agree modulo `m`. -/
def ShapeAgrees (rows cols m : Nat) (s s' : State) : Prop :=
  ∀ c r : Fin 4, c.val < cols → r.val < rows →
    (readA (elementA r c) s).toNat ≡ (readA (elementA r c) s').toNat [MOD m]

theorem hashNarrow_modEq {rows cols k : Nat} (hk : k ≤ 32) (K : Fin 4 → Fin 4 → Word) (k0 : Word) {s s' : State}
    (h : ShapeAgrees rows cols (2 ^ k) s s') :
    (hashNarrow rows cols K k0 s).toNat ≡ (hashNarrow rows cols K k0 s').toNat [MOD 2 ^ k] := by
  have hdvd : 2 ^ k ∣ 2 ^ 32 := pow_dvd_pow 2 hk
  rw [hashNarrow_toNat, hashNarrow_toNat]
  refine ((Nat.mod_modEq _ _).of_dvd hdvd).trans (.trans (.add_right _ ?_) ((Nat.mod_modEq _ _).of_dvd hdvd).symm)
  refine Nat.ModEq.sum fun c _ => Nat.ModEq.sum fun r _ => ?_
  split_ifs with hshape
  · exact (h c r hshape.1 hshape.2).mul_right _
  · rfl

theorem hashWideLane_modEq {rows cols k : Nat} (hk : k ≤ 32) (K : Fin 4 → Fin 4 → Word) (k0 : Fin 4 → Word)
    {s s' : State} (h : ShapeAgrees rows cols (2 ^ k) s s') {r : Fin 4} (hr : r.val < rows) :
    (hashWideLane cols K k0 s r).toNat ≡ (hashWideLane cols K k0 s' r).toNat [MOD 2 ^ k] := by
  have hdvd : 2 ^ k ∣ 2 ^ 32 := pow_dvd_pow 2 hk
  rw [hashWideLane_toNat, hashWideLane_toNat]
  refine ((Nat.mod_modEq _ _).of_dvd hdvd).trans (.trans (.add_right _ ?_) ((Nat.mod_modEq _ _).of_dvd hdvd).symm)
  refine Nat.ModEq.sum fun c _ => ?_
  split_ifs with hc
  · exact (h c r hc hr).mul_right _
  · rfl

/-- Settles O37: both hashes are sums of products over the shape, and 2^k divides 2^32. -/
theorem hashLowBitsDependOnLowBits : Obligations.HashLowBitsDependOnLowBits := by
  intro i rows cols h k s s' t t' hk hagree hexec hexec' j hj
  obtain h | h := h
  · obtain rfl : j = 0 := by simpa [namedResults_hash h] using hj
    rw [readY_of_hash h hexec, readY_of_hash h hexec']
    exact hashNarrow_modEq hk _ _ hagree
  · rw [namedResults_hashwide h] at hj
    obtain ⟨r, hr, rfl⟩ := List.mem_map.1 hj
    rw [mem_lanes] at hr
    rw [readY_of_hashwide h hexec hr, readY_of_hashwide h hexec' hr]
    exact hashWideLane_modEq hk _ _ hagree hr

/-! ## Sums of words -/

theorem eq_natCast_of_toNat_eq_mod {x : Word} {n : Nat} (h : x.toNat = n % 2 ^ 32) : x = (n : Word) :=
  BitVec.eq_of_toNat_eq (by rw [h]; simp)

theorem natCast_toNat (x : Word) : ((x.toNat : Nat) : Word) = x := by simp

/-- The narrow hash as a sum of words (43_hash.md R154). -/
theorem hashNarrow_eq_sum (rows cols : Nat) (K : Fin 4 → Fin 4 → Word) (k0 : Word) (s : State) :
    hashNarrow rows cols K k0 s =
      (∑ c : Fin 4, ∑ r : Fin 4, if c.val < cols ∧ r.val < rows then readA (elementA r c) s * K c r else 0) + k0 := by
  rw [eq_natCast_of_toNat_eq_mod (hashNarrow_toNat rows cols K k0 s)]
  push_cast
  simp only [natCast_toNat]

theorem hashWideLane_eq_sum (cols : Nat) (K : Fin 4 → Fin 4 → Word) (k0 : Fin 4 → Word) (s : State) (r : Fin 4) :
    hashWideLane cols K k0 s r =
      (∑ c : Fin 4, if c.val < cols then readA (elementA r c) s * K c r else 0) + k0 r := by
  rw [eq_natCast_of_toNat_eq_mod (hashWideLane_toNat cols K k0 s r)]
  push_cast
  simp only [natCast_toNat]

/-! ## One element changed -/

theorem elementA_inj {r r' c c' : Fin 4} : elementA r c = elementA r' c' ↔ c = c' ∧ r = r' := by
  simp only [elementA, Fin.ext_iff]
  omega

theorem readA_elementA_writeA (r c r' c' : Fin 4) (v : Word) (s : State) :
    readA (elementA r' c') (writeA (elementA r c) v s) = readA (elementA r' c') s +
      if c' = c ∧ r' = r then v - readA (elementA r c) s else 0 := by
  rw [readA_writeA]
  by_cases hplace : c' = c ∧ r' = r
  · obtain ⟨rfl, rfl⟩ := hplace
    rw [if_pos rfl, if_pos ⟨rfl, rfl⟩, add_sub_cancel]
  · have hne : elementA r c ≠ elementA r' c' := fun h => hplace (elementA_inj.1 h.symm)
    rw [if_neg hne, if_neg hplace, add_zero]

/-- Changing an element changes the wide hash of its row by the change times the element's constant, and of no other. -/
theorem hashWideLane_writeA {cols : Nat} {c : Fin 4} (hc : c.val < cols) (r r' : Fin 4) (v : Word)
    (K : Fin 4 → Fin 4 → Word) (k0 : Fin 4 → Word) (s : State) :
    hashWideLane cols K k0 (writeA (elementA r c) v s) r' = hashWideLane cols K k0 s r' +
      if r' = r then (v - readA (elementA r c) s) * K c r else 0 := by
  have hterm (c' : Fin 4) :
      (if c'.val < cols then readA (elementA r' c') (writeA (elementA r c) v s) * K c' r' else 0) =
      (if c'.val < cols then readA (elementA r' c') s * K c' r' else 0) +
        if c' = c then (if r' = r then (v - readA (elementA r c) s) * K c r else 0) else 0 := by
    rw [readA_elementA_writeA]
    by_cases hcol : c' = c
    · subst hcol
      by_cases hrow : r' = r
      · subst hrow
        simp only [hc, and_self, if_true]
        ring
      · simp [hrow]
    · simp [hcol]
  simp only [hashWideLane_eq_sum, hterm, Finset.sum_add_distrib, Finset.sum_ite_eq', Finset.mem_univ, if_true]
  ring

/-- The same of the narrow hash. -/
theorem hashNarrow_writeA {rows cols : Nat} {c r : Fin 4} (hc : c.val < cols) (hr : r.val < rows) (v : Word)
    (K : Fin 4 → Fin 4 → Word) (k0 : Word) (s : State) :
    hashNarrow rows cols K k0 (writeA (elementA r c) v s) =
      hashNarrow rows cols K k0 s + (v - readA (elementA r c) s) * K c r := by
  have hterm (c' r' : Fin 4) :
      (if c'.val < cols ∧ r'.val < rows then readA (elementA r' c') (writeA (elementA r c) v s) * K c' r' else 0) =
      (if c'.val < cols ∧ r'.val < rows then readA (elementA r' c') s * K c' r' else 0) +
        if r' = r then (if c' = c then (v - readA (elementA r c) s) * K c r else 0) else 0 := by
    rw [readA_elementA_writeA]
    by_cases hcol : c' = c
    · subst hcol
      by_cases hrow : r' = r
      · subst hrow
        simp only [hc, hr, and_self, if_true]
        ring
      · simp [hrow]
    · simp [hcol]
  simp only [hashNarrow_eq_sum, hterm, Finset.sum_add_distrib, Finset.sum_ite_eq', Finset.mem_univ, if_true]
  ring

/-! ## One bit flipped -/

/-- Flipping a clear bit adds the bit's power of 2. -/
theorem xor_twoPow_of_clear {x : Word} {b : Nat} (hbit : x.getLsbD b = false) :
    x ^^^ BitVec.twoPow 32 b = x + BitVec.twoPow 32 b := by
  have hdisjoint : x &&& BitVec.twoPow 32 b = 0#32 := by
    rw [BitVec.and_twoPow, hbit]
    rfl
  rw [BitVec.add_eq_or_of_and_eq_zero _ _ hdisjoint]
  apply BitVec.eq_of_getLsbD_eq
  intro j hj
  rw [BitVec.getLsbD_xor, BitVec.getLsbD_or, BitVec.getLsbD_twoPow]
  by_cases hjb : b = j
  · subst hjb
    rw [hbit, Bool.false_xor, Bool.false_or]
  · simp [hjb]

/-- Flipping a set bit takes the bit's power of 2 away: flipping it back adds it. -/
theorem xor_twoPow_of_set {x : Word} {b : Nat} (hb : b < 32) (hbit : x.getLsbD b = true) :
    x ^^^ BitVec.twoPow 32 b = x - BitVec.twoPow 32 b := by
  have hclear : (x ^^^ BitVec.twoPow 32 b).getLsbD b = false := by simp [hbit, hb]
  have hback := xor_twoPow_of_clear hclear
  rw [BitVec.xor_assoc, BitVec.xor_self, BitVec.xor_zero] at hback
  exact eq_sub_of_add_eq hback.symm

/-- An odd constant times 2^b has bit `b` set. -/
theorem mul_twoPow_ne_zero {k : Word} (hodd : k.toNat % 2 = 1) {b : Nat} (hb : b < 32) :
    k * BitVec.twoPow 32 b ≠ 0 := by
  intro h
  have hbit : (k * BitVec.twoPow 32 b).getLsbD b = true := by
    rw [BitVec.mul_twoPow_eq_shiftLeft, BitVec.getLsbD_shiftLeft, Nat.sub_self, (getLsbD_zero_iff_odd k).2 hodd]
    simp [hb]
  rw [h] at hbit
  simp at hbit

/-- The change of a flipped bit times an odd constant is the constant times the bit's power of 2, added or taken away by
whether the bit was clear or set, and it is not 0. -/
theorem flip_mul {k : Word} (hodd : k.toNat % 2 = 1) (x : Word) {b : Nat} (hb : b < 32) :
    ((x ^^^ BitVec.twoPow 32 b) - x) * k ≠ 0 ∧
    (x.getLsbD b = false → ((x ^^^ BitVec.twoPow 32 b) - x) * k = k * BitVec.twoPow 32 b) ∧
    (x.getLsbD b = true → ((x ^^^ BitVec.twoPow 32 b) - x) * k = -(k * BitVec.twoPow 32 b)) := by
  have hclear (h : x.getLsbD b = false) : ((x ^^^ BitVec.twoPow 32 b) - x) * k = k * BitVec.twoPow 32 b := by
    rw [xor_twoPow_of_clear h]
    ring
  have hset (h : x.getLsbD b = true) : ((x ^^^ BitVec.twoPow 32 b) - x) * k = -(k * BitVec.twoPow 32 b) := by
    rw [xor_twoPow_of_set hb h]
    ring
  refine ⟨?_, hclear, hset⟩
  cases hbit : x.getLsbD b
  · rw [hclear hbit]
    exact mul_twoPow_ne_zero hodd hb
  · rw [hset hbit]
    exact neg_ne_zero.2 (mul_twoPow_ne_zero hodd hb)

theorem tableOf_odd {rows cols : Nat} (hrows : rows ≤ 4) (hcols : cols ≤ 4) (raw : Fin 4 → Fin 4 → Word) {c r : Fin 4}
    (hc : c.val < cols) (hr : r.val < rows) : (tableOf rows cols raw c r).toNat % 2 = 1 :=
  (entry_of_tableLegal (tableOf_legal rows cols raw hrows hcols) hc hr).1

/-- Settles O35: the hash changes by the change of the element times the element's constant, which is odd. -/
theorem hashSeesEveryBit : Obligations.HashSeesEveryBit := by
  intro i rows cols h s t t' c r b hc hr hb hexec hexec'
  obtain ⟨-, hrows, -, hcols⟩ := shape_bounds (.inl h)
  have hodd : (hashK rows cols c r).toNat % 2 = 1 := tableOf_odd hrows hcols _ hc hr
  obtain ⟨hne, hclear, hset⟩ := flip_mul hodd (readA (elementA r c) s) hb
  rw [readY_of_hash h hexec, readY_of_hash h hexec', hashNarrow_writeA hc hr]
  refine ⟨fun heq => hne (add_eq_left.1 heq), fun hbit => ?_, fun hbit => ?_⟩
  · rw [hclear hbit]
  · rw [hset hbit, sub_eq_add_neg]

/-- Settles O36: the lane of the element's row changes as in O35, and no other lane reads the element. -/
theorem hashwideSeesEveryBit : Obligations.HashwideSeesEveryBit := by
  intro i rows cols h s t t' c r b hc hr hb hexec hexec'
  obtain ⟨-, hrows, -, hcols⟩ := shape_bounds (.inr h)
  have hodd : (wideK rows cols c r).toNat % 2 = 1 := tableOf_odd hrows hcols _ hc hr
  obtain ⟨hne, -, -⟩ := flip_mul hodd (readA (elementA r c) s) hb
  refine ⟨?_, fun j hj => ?_⟩
  · rw [readY_of_hashwide h hexec hr, readY_of_hashwide h hexec' hr, hashWideLane_writeA hc, if_pos rfl]
    exact fun heq => hne (add_eq_left.1 heq)
  · by_cases hnamed : j ∈ (lanes rows).map lowY
    · obtain ⟨r', hr', rfl⟩ := List.mem_map.1 hnamed
      rw [mem_lanes] at hr'
      have hother : r' ≠ r := fun heq => hj (heq ▸ rfl)
      rw [readY_of_hashwide h hexec hr', readY_of_hashwide h hexec' hr', hashWideLane_writeA hc, if_neg hother,
        add_zero]
    · rw [← namedResults_hashwide h] at hnamed
      rw [exec_keeps_unnamed hexec hnamed, exec_keeps_unnamed hexec' hnamed, readY_writeA]

end Sys2Proof.Machine
